-- ==== Sys2Proof/Word.lean ====
section
/-! DEFINITION. The word types of the Fakjel 740. Bit vectors stand for what the manual treats as bits
(bytes, addresses, beats, counters that wrap); counts and lengths are `Nat`. -/

namespace Sys2Proof

/-- One byte. -/
abbrev Byte := BitVec 8

/-- A physical address of 40 bits (00 section 5.2). -/
abbrev Addr := BitVec 40

/-- The data of one beat, 16 bytes, the lowest address in the lowest bits (00 section 5.2). -/
abbrev Beat := BitVec 128

/-- One bit for each byte of a beat: strobes, or data parity bits (R146). -/
abbrev BeatBits := BitVec 16

/-- A master ID (R146). -/
abbrev MasterId := BitVec 8

/-- The beat count field of a request: it holds 16 values, numbered here 0..15 for 1..16 beats (R146). -/
abbrev BeatField := BitVec 4

/-- A 32-bit counter that wraps (00 section 5.3). -/
abbrev Counter := BitVec 32

/-- A conveyor position in encoder counts, 32 bits, two's complement, wrapping (R97). -/
abbrev Position := BitVec 32

/-- A board serial, 16 bits, wrapping (00 section 5.3). -/
abbrev Serial := BitVec 16

/-- A frame number, 16 bits, wrapping (00 section 5.3). -/
abbrev FrameNumber := BitVec 16

/-- The number of beats a beat count field stands for, 1..16 (R146). -/
def beatCount (f : BeatField) : Nat := f.toNat + 1

end Sys2Proof
end

