-- ==== Sys2Proof/Syntax.lean ====
section
/-! DEFINITION. The commands of the block: one constructor of `Instr` for each row of
spec/opcode_table.json, with the operands that its rule gives the event. -/

namespace Sys2Proof

/-- The two upstream ports (00 section 1.2). -/
inductive PortId where
  | capture
  | system
  deriving DecidableEq, Repr

/-- The two kinds of full reset (R196). -/
inductive FullResetKind where
  | power
  | pin
  deriving DecidableEq, Repr

/-- The response of memory, and of an answer given upstream (R146). -/
inductive Response where
  | okay
  | error
  deriving DecidableEq, Repr

/-- The direction of a request (R146). -/
inductive Direction where
  | read
  | write
  deriving DecidableEq, Repr

/-- A request at an upstream port, as its wires carry it (R146). The direction is the row's own. -/
structure Request where
  master : MasterId
  addr   : Addr
  beats  : BeatField
  /-- The request parity bit as it arrived. -/
  parity : Bool
  deriving DecidableEq, Repr

/-- One write data beat as it arrives at an upstream port (R146). -/
structure WriteBeat where
  data    : Beat
  strobes : BeatBits
  /-- The data parity bits as they arrived, one for each byte. -/
  parity  : BeatBits
  /-- The partner sends the beat for a write that the port took before the last full reset (R165; log entry 44). -/
  ofLostWrite : Bool
  deriving DecidableEq, Repr

/-- The argument bytes of SET_LINE in the command slot (R202). -/
structure LineArgs where
  diverter  : BitVec 32
  window    : BitVec 32
  deadTime  : BitVec 32
  timeout   : BitVec 32
  direction : Byte
  edge      : Byte
  report    : Byte
  holds     : Byte
  gateMode  : Byte
  deriving DecidableEq, Repr

/-- The commands and events of the block, one for each row of spec/opcode_table.json.

The rows of the mailbox (`mailboxShadowWrite`, `consumerUpdate`, `loadProgram` to `unknownKind`) are what the
mailbox decoder does with ONE copied system write that carries the operand's bytes; a command row's write also
sets the kind word to the row's code. An `arbiterGrant` that sends such a write does the same in its own step
(log entry 11). -/
inductive Instr where
  /-- R196: power-on or RESET_N, with the levels of the straps MBX_SEL and IMG_CONTAIN. -/
  | fullReset (kind : FullResetKind) (mbxSel : BitVec 3) (imgContain : Bool)
  /-- R148: a port takes a write request. -/
  | writeRequest (port : PortId) (req : Request)
  /-- R148: a port takes a read request. -/
  | readRequest (port : PortId) (req : Request)
  /-- R146: a write data beat arrives at a port. -/
  | writeBeat (port : PortId) (beat : WriteBeat)
  /-- R23: the capture port offers its head write to the frame tracker. -/
  | burstOffer
  /-- R33: the frame tracker handles the next segment. -/
  | segment
  /-- R41: the work of CLOSING. -/
  | closing
  /-- R99: a sample of ENC_A and ENC_B. -/
  | encoderStep (a b : Bool)
  /-- R100: a sample in which both encoder inputs changed. -/
  | illegalStep
  /-- R101: the filtered board-edge level changes against the edge polarity. -/
  | boardEdgeTrailing
  /-- R102: the filtered board-edge level changes with the edge polarity. -/
  | boardEdgeLeading
  /-- R116: the DEAD interval runs out. -/
  | deadTimeEnd
  /-- R161: memory can take a request. `tagPick` chooses among the tags not held (R158, log entry 9);
  `segmentInHand` says whether the frame tracker has its next segment in hand (R192, log entry 10). -/
  | arbiterGrant (tagPick : Nat) (segmentInHand : Bool)
  /-- R183: a copied system write to the command slot; an entry is a byte whose strobe is set. -/
  | mailboxShadowWrite (bytes : Vector (Option Byte) 64)
  /-- R162: memory returns a response with a tag and, for a read, data beats. -/
  | memoryResponse (tag : Nat) (resp : Response) (data : List Beat)
  /-- R140: the response timer of the request with this tag expires. -/
  | responseTimerExpiry (tag : Nat)
  /-- R11: the loader hands over its next fetch read. -/
  | fetchReadIssue
  /-- R174: the record writer hands over the slot write of the head record. -/
  | ringSlotWrite
  /-- R157: owners waiting for room hand over their requests. -/
  | internalHandover
  /-- R177, R187: a copied system write to the consumer index word, with its master ID and address. -/
  | consumerUpdate (master : MasterId) (addr : Addr) (bytes : Vector (Option Byte) 4)
  /-- R8: command 1, with the program address. -/
  | loadProgram (address : BitVec 64)
  /-- R9: command 2. -/
  | abortLoad
  /-- R172: command 3, with ring base, ring size and interrupt enable. -/
  | setRing (base : BitVec 64) (size : BitVec 32) (irq : Byte)
  /-- R190: command 4. -/
  | setLine (args : LineArgs)
  /-- R164: command 5, with port, data parity policy, fail response and memory response limit. -/
  | setPortPolicy (port policy failResponse : Byte) (limit : BitVec 16)
  /-- R128: command 6, with the source. -/
  | clearLog (source : Byte)
  /-- R137: command 7, with the port. -/
  | resumePort (port : Byte)
  /-- R145: command 8. -/
  | releaseGate
  /-- R192: command 9; `segmentInHand` as at `arbiterGrant`. -/
  | inspectionReset (segmentInHand : Bool)
  /-- R185: a kind word with no known code. -/
  | unknownKind (kind : BitVec 32)
  /-- R101: a sample of BOARD_EDGE. -/
  | boardEdgeSample (high : Bool)
  deriving DecidableEq, Repr

end Sys2Proof
end

