-- ==== Sys2Proof/Decode.lean ====
section
/-! DEFINITION. The commands that words spell. No row of spec/opcode_table.json gives bits (the block has no
instruction encoding), so no word spells a command. -/

namespace Sys2Proof

/-- The command spelled by the low `nbits` bits of `w`: none, since no row of the table gives bits. -/
def decodeTableWord (_nbits _w : Nat) : Option Instr := none

end Sys2Proof
end

