-- ==== Sys2Proof/Config.lean ====
section
/-! DEFINITION. The sizes the manual fixes, and the values it leaves open (opaque constants without a body:
a claim about them holds whatever they are). -/

namespace Sys2Proof.Config

/-- Places of a write buffer (R148). -/
def writeBufferPlaces : Nat := 8
/-- Reads of a port taken and not yet answered (R148). -/
def readPlaces : Nat := 16
/-- Forwarded writes of one port outstanding at memory (R159). -/
def outstandingWrites : Nat := 8
/-- Forwarded reads of one port outstanding at memory (R159). -/
def outstandingReads : Nat := 16
/-- Internal requests outstanding at memory (R159). -/
def outstandingInternal : Nat := 8
/-- Places of the internal master's queue (R157). -/
def internalPlaces : Nat := 8
/-- Tags of the memory port (R158). -/
def tags : Nat := 56
/-- Accumulator records of the open joint set (R64). -/
def openJoints : Nat := 512
/-- Entries of the board queue (R104). -/
def boardPlaces : Nat := 8
/-- Records the output queue holds at most (R170). -/
def outputPlaces : Nat := 32
/-- The number of queued records from which JOINT records are dropped (R170). -/
def jointLimit : Nat := 24
/-- The drop counter's last value (R167). -/
def dropMax : Nat := 4294967295
/-- The untracked count's last value (R97). -/
def untrackedMax : Nat := 65535
/-- The memory response limit after a full reset, in microseconds (R140). -/
def defaultResponseLimit : Nat := 2000
/-- The master ID of internal requests (R157). -/
def internalMaster : MasterId := 0xFF
/-- Size of the mailbox window in bytes (R182). -/
def windowSize : Nat := 4096
/-- Offset of the consumer index word in the window (R182). -/
def consumerOffset : Nat := 0x40
/-- Offset of the status block in the window (R182). -/
def statusOffset : Nat := 0x100
/-- Offset of the producer word in the window (R203). -/
def producerOffset : Nat := 0x138

/-- FREE VALUE (log entry 5). R146 has the request parity bit cover the beat count and direction fields and
does not say how those are encoded: whether the bits of the two fields hold an odd number of ones. -/
opaque controlParity : BeatField → Direction → Bool

/-- FREE VALUE (log entry 6). The data beats of the ERROR answer to a read whose request parity failed
(R129 gives the response, not the data); arguments: the request's stamp and the beat's number. -/
opaque refusedReadBeat : Nat → Nat → Beat

/-- FREE VALUE (log entry 7). The address sent for a fetch read that would begin at this number, at or above
2^40, of a program image that runs past the address range. -/
opaque addressPastEnd : Nat → Addr

/-- FREE VALUE (log entry 8). A data beat that memory's response to a read left out; arguments: the tag and
the beat's number. -/
opaque missingBeat : Nat → Nat → Beat

end Sys2Proof.Config
end

