-- ==== Sys2Proof/Machine/State.lean ====
section
/-! DEFINITION. The state of the block, every piece the spec names, as plain data; the state after reset; the
reasons a step could stop (there are none). -/

namespace Sys2Proof.Machine

/-! ### Upstream ports (07, 08) -/

/-- Data parity policy of a port (R133). -/
inductive Policy where
  | mark
  | contain
  deriving DecidableEq, Repr

/-- Fail response of a port (R133). -/
inductive FailResponse where
  | allOnes
  | error
  deriving DecidableEq, Repr

/-- Containment state of a port (R133); `opened` is the manual's OPEN. -/
inductive Containment where
  | opened
  | contained
  deriving DecidableEq, Repr

/-- States of a write in a write buffer (R150). -/
inductive WriteState where
  | taking
  | waiting
  | held
  | ready
  deriving DecidableEq, Repr

/-- A write beat as the port keeps it: `bad` when one of its bytes failed its data parity check (R130). -/
structure TakenBeat where
  data    : Beat
  strobes : BeatBits
  bad     : Bool
  deriving DecidableEq, Repr

/-- A write in a write buffer (R146, R150). -/
structure BufferedWrite where
  /-- The model's number of the request, in the order taken (log entry 14). -/
  stamp     : Nat
  master    : MasterId
  addr      : Addr
  beats     : BeatField
  /-- The data parity policy under which it was taken (R130). -/
  policy    : Policy
  /-- The beats taken so far, in address order. -/
  taken     : List TakenBeat
  state     : WriteState
  /-- The frame tracker has answered Inspect (R134). -/
  inspected : Bool
  /-- It is discarded when its last beat has been taken (R134, R135; log entry 16). -/
  doomed    : Bool
  deriving DecidableEq, Repr

/-- A write whose request parity failed, and how many beats are still to be discarded for it (R129). -/
structure FailedWrite where
  stamp : Nat
  left  : Nat
  deriving DecidableEq, Repr

/-- A read in a port's read list (R153). -/
structure ListedRead where
  stamp        : Nat
  master       : MasterId
  addr         : Addr
  beats        : BeatField
  /-- The fail response under which it was taken (R133; log entry 33). -/
  failResponse : FailResponse
  deriving DecidableEq, Repr

/-- An answer at an upstream port; `data` is empty for a write (R146). -/
structure Answer where
  master    : MasterId
  direction : Direction
  response  : Response
  data      : List Beat
  deriving DecidableEq, Repr

/-- A request taken and not yet answered; `decided` is the answer that waits under R149, if any. -/
structure OpenRequest where
  stamp      : Nat
  master     : MasterId
  direction  : Direction
  /-- It holds a place among the reads of R148: a read whose request parity passed. -/
  holdsPlace : Bool
  decided    : Option Answer
  deriving DecidableEq, Repr

/-- An upstream port. -/
structure Port where
  /-- The write buffer, the head first (R150). -/
  buffer       : List BufferedWrite
  /-- Writes with failed request parity whose beats still arrive (R129). -/
  failing      : List FailedWrite
  /-- Reads not yet forwarded, the head first (R153). -/
  reads        : List ListedRead
  /-- Requests taken and not yet answered, in the order taken (R149). -/
  unanswered   : List OpenRequest
  containment  : Containment
  policy       : Policy
  failResponse : FailResponse
  /-- The answers given to the partner so far, oldest first (the model's record, log entry 13). -/
  given        : List Answer
  deriving DecidableEq, Repr

/-! ### Memory port, arbiter and internal master (07, 08) -/

/-- The three sources of requests at the memory arbiter (R161). -/
inductive Source where
  | capture
  | system
  | internal
  deriving DecidableEq, Repr

/-- Whom the response of an outstanding request goes to (R159, R162). -/
inductive EntryOwner where
  | upstream (port : PortId) (stamp : Nat)
  | loader (stamp : Nat)
  | slotWrite (stamp : Nat)
  | producerWord
  | statusWriter
  deriving DecidableEq, Repr

/-- An entry of the outstanding table (R159). -/
structure TableEntry where
  tag       : Nat
  owner     : EntryOwner
  master    : MasterId
  addr      : Addr
  beats     : BeatField
  direction : Direction
  /-- What is left of the response timer, in microseconds (R140). -/
  timer     : Nat
  deriving DecidableEq, Repr

/-- A write beat as the memory port sends it (R158). -/
structure SentBeat where
  data    : Beat
  strobes : BeatBits
  parity  : BeatBits
  poison  : Bool
  deriving DecidableEq, Repr

/-- A request as the memory port sends it (R158); `data` is empty for a read. -/
structure SentRequest where
  tag       : Nat
  master    : MasterId
  addr      : Addr
  beats     : BeatField
  direction : Direction
  parity    : Bool
  data      : List SentBeat
  deriving DecidableEq, Repr

/-- The memory port and its arbiter. -/
structure MemoryPort where
  table         : List TableEntry
  /-- Memory response limit in microseconds (R140). -/
  responseLimit : Nat
  lastGrantee   : Source
  /-- The requests sent to memory so far, oldest first (the model's record, log entry 13). -/
  sent          : List SentRequest
  deriving DecidableEq, Repr

/-- What an internal request does (R157). -/
inductive InternalWork where
  /-- A fetch read of the loader (R11). -/
  | fetch (addr : Addr) (beats : BeatField)
  /-- A slot write: the two beats of a record (R174). -/
  | slotWrite (addr : Addr) (first second : Beat)
  /-- A producer word write (R175). -/
  | producerWord (value : Counter)
  /-- A status block write; its contents are taken at the grant (R194). -/
  | statusBlock
  deriving DecidableEq, Repr

/-- A request in the internal master's queue. -/
structure InternalRequest where
  stamp : Nat
  work  : InternalWork
  deriving DecidableEq, Repr

/-- An owner that waits for room in the internal master's queue (R157). -/
inductive Waiter where
  | fetch
  | slotWrite
  | producerWord (value : Counter)
  | statusBlock
  deriving DecidableEq, Repr

/-- The internal master: its queue, head first, and the waiting owners, longest wait first (R157). -/
structure InternalMaster where
  queue   : List InternalRequest
  waiters : List Waiter
  deriving DecidableEq, Repr

/-! ### Program store and loader (01) -/

/-- A lane entry of a program (R2). -/
structure Lane where
  master : MasterId
  first  : Nat
  last   : Nat
  deriving DecidableEq, Repr

/-- A validated program header (R1). -/
structure Header where
  programId   : BitVec 32
  base        : Addr
  width       : Nat
  height      : Nat
  pitch       : Nat
  lanes       : List Lane
  recipeCount : Nat
  jointCount  : Nat
  deriving DecidableEq, Repr

/-- A recipe (R3). -/
structure Recipe where
  darkSum    : Nat
  margin     : Nat
  minValid   : Nat
  satMax     : Nat
  darkMax    : Nat
  slopeMin   : Nat
  steepMax   : Nat
  brightMin  : Nat
  bridgeRows : Nat
  deriving DecidableEq, Repr

/-- A rectangle of columns x0..x1 and rows y0..y1 (R4). -/
structure Rect where
  x0 : Nat
  x1 : Nat
  y0 : Nat
  y1 : Nat
  deriving DecidableEq, Repr

/-- Weight of a joint (R4). -/
inductive Weight where
  | critical
  | advisory
  deriving DecidableEq, Repr

/-- A joint entry (R4). -/
structure Joint where
  label  : BitVec 16
  region : Rect
  recipe : Nat
  weight : Weight
  gap    : Option Rect
  deriving DecidableEq, Repr

/-- A complete program (R1). -/
structure Program where
  header  : Header
  recipes : List Recipe
  joints  : List Joint
  deriving DecidableEq, Repr

/-- The fetch read of a load that has been handed over and not yet answered. -/
structure FetchRead where
  stamp  : Nat
  /-- Offset in the image of the read's first byte. -/
  offset : Nat
  deriving DecidableEq, Repr

/-- A load in progress, the contents of a LOADING bank (R5, R11). -/
structure Load where
  address     : Addr
  header      : Option Header
  recipes     : List Recipe
  joints      : List Joint
  /-- Bytes received that complete no item yet. -/
  received    : List Byte
  /-- Offset of the first byte of the image not yet read. -/
  nextOffset  : Nat
  outstanding : Option FetchRead
  deriving DecidableEq, Repr

/-- A program bank with its state and contents (R5). -/
inductive Bank where
  | empty
  | loading (load : Load)
  | ready (program : Program)
  | active (program : Program)
  deriving DecidableEq, Repr

/-- The two banks (R5). -/
inductive BankId where
  | bank0
  | bank1
  deriving DecidableEq, Repr

/-- How a load ended (R7). -/
inductive LoadOutcome where
  | loaded
  | format
  | geometry
  | lanes
  | recipe
  | jointOrder
  | jointRange
  | gap
  | windowOverlap
  | fetchError
  | aborted
  deriving DecidableEq, Repr

/-- The load outcome record (R7). -/
structure LoadRecord where
  target  : Option BankId
  outcome : Option LoadOutcome
  index   : Nat
  deriving DecidableEq, Repr

/-- The program store (R5, R7). -/
structure ProgramStore where
  bank0  : Bank
  bank1  : Bank
  record : LoadRecord
  deriving DecidableEq, Repr

/-! ### Frame tracker (02) -/

/-- Frame state (R22); `opened` is the manual's OPEN. -/
inductive FrameState where
  | idle
  | opened
  | closing
  deriving DecidableEq, Repr

/-- Why a frame closed (R22). -/
inductive CloseKind where
  | normal
  | timeout
  | truncated
  deriving DecidableEq, Repr

/-- Progress record of a lane (R29). -/
structure LaneProgress where
  row       : Nat
  column    : Nat
  /-- The last row closed; -1 when none. -/
  watermark : Int
  deriving DecidableEq, Repr

/-- One pixel of a segment: its column, its word and the strobes of its four bytes (R45). -/
structure Pixel where
  column  : Nat
  word    : BitVec 32
  strobes : BitVec 4
  deriving DecidableEq, Repr

/-- A segment: the part of a burst in one image row, clipped to the lane (R28). -/
structure Segment where
  row    : Nat
  first  : Nat
  last   : Nat
  pixels : List Pixel
  deriving DecidableEq, Repr

/-- The burst in progress (R22, R23). -/
structure Burst where
  master    : MasterId
  addr      : Addr
  /-- Index of the burst's lane. -/
  lane      : Nat
  /-- A beat failed its data parity check (R34). -/
  damaged   : Bool
  /-- C_LANE_RANGE is still to be reported for the burst (R28; log entry 17). -/
  outOfLane : Bool
  /-- The segments not yet handled, in address order. -/
  segments  : List Segment
  deriving DecidableEq, Repr

/-- The frame tracker (R22). A binding of none is UNMATCHED. -/
structure FrameTracker where
  state     : FrameState
  number    : FrameNumber
  closeKind : Option CloseKind
  opening   : Position
  binding   : Option Serial
  progress  : List LaneProgress
  burst     : Option Burst
  deriving DecidableEq, Repr

/-! ### Open joint set and judgement (04, 05) -/

/-- The counts of a region (R59). -/
structure Counts where
  flat    : Nat
  slope   : Nat
  steep   : Nat
  mixed   : Nat
  dark    : Nat
  invalid : Nat
  sat     : Nat
  sumS    : Nat
  deriving DecidableEq, Repr

/-- The gap part of a record (R59). -/
structure GapPart where
  row     : Option Nat
  count   : Nat
  bridged : Nat
  deriving DecidableEq, Repr

/-- An accumulator record (R59). -/
structure Accumulator where
  index         : Nat
  region        : Rect
  gap           : Option Rect
  recipe        : Nat
  counts        : Counts
  gapPart       : Option GapPart
  damaged       : Bool
  order         : Bool
  waitSet       : List Nat
  completionRow : Nat
  deriving DecidableEq, Repr

/-- The open joint set: its records in ascending table index, and the admission pointer (R59, R62). -/
structure JointSet where
  records : List Accumulator
  pointer : Nat
  deriving DecidableEq, Repr

/-- The six verdict counts (R92). -/
structure VerdictCounts where
  ok           : Nat
  excess       : Nat
  insufficient : Nat
  nonwet       : Nat
  bridge       : Nat
  unreadable   : Nat
  deriving DecidableEq, Repr

/-- The frame tally (R92). -/
structure Tally where
  counts   : VerdictCounts
  critical : Bool
  lost     : Nat
  deriving DecidableEq, Repr

/-- Verdict of a joint (05). -/
inductive Verdict where
  | ok
  | excess
  | insufficient
  | nonwet
  | bridge
  | unreadable
  deriving DecidableEq, Repr

/-- Cause of UNREADABLE (05). -/
inductive Cause where
  | truncated
  | damaged
  | noValid
  | lowValid
  | saturated
  | openSetFull
  | notReached
  deriving DecidableEq, Repr

/-- The defects found in a joint (R81, R86). -/
structure Defects where
  excess       : Bool
  insufficient : Bool
  nonwet       : Bool
  bridge       : Bool
  deriving DecidableEq, Repr

/-- The measurement of a joint (R83). -/
structure Measurement where
  qValid : Nat
  qSat   : Nat
  qFlat  : Nat
  qSlope : Nat
  qSteep : Nat
  qDark  : Nat
  bm     : Nat
  deriving DecidableEq, Repr

/-- A joint result (R81). -/
structure JointResult where
  frame       : FrameNumber
  index       : Nat
  label       : BitVec 16
  verdict     : Verdict
  cause       : Option Cause
  defects     : Defects
  measurement : Option Measurement
  bridgedRows : Option Nat
  order       : Bool
  incomplete  : Bool
  advisory    : Bool
  deriving DecidableEq, Repr

/-! ### Line controller (06) -/

/-- Board verdict (R105). -/
inductive BoardVerdict where
  | pass
  | reject
  deriving DecidableEq, Repr

/-- State of a board entry with what it holds from that state on (R104). -/
inductive BoardState where
  | awaitingImage
  | imaging (frame : FrameNumber)
  | judged (frame : FrameNumber) (verdict : BoardVerdict)
  deriving DecidableEq, Repr

/-- A board entry (R102). -/
structure Board where
  serial : Serial
  entry  : Position
  due    : Position
  state  : BoardState
  deriving DecidableEq, Repr

/-- Gate action of a board, as its record shows it (R106, R111). -/
inductive GateAction where
  | none
  | driven
  | cut
  | forced
  | off
  deriving DecidableEq, Repr

/-- The late note (R108). -/
structure LateNote where
  serial : Serial
  action : GateAction
  deriving DecidableEq, Repr

/-- Gate mode (R97). -/
inductive GateMode where
  | off
  | active
  | held
  deriving DecidableEq, Repr

/-- The two gate outputs, and the two kinds of action (R112). -/
inductive GateLine where
  | pass
  | reject
  deriving DecidableEq, Repr

/-- A pending action of the gate driver, or the hold (R112). -/
inductive Pending where
  | action (kind : GateLine) (endAt : Position) (owner : Serial)
  | hold
  deriving DecidableEq, Repr

/-- The gate driver (R112). `driving` is DRIVING_PASS or DRIVING_REJECT; it has no end position while it holds
the gate. `dead` has the line that went inactive and the microseconds left. -/
inductive GateDriver where
  | idle
  | driving (kind : GateLine) (endAt : Option Position) (owner : Option Serial)
  | dead (line : GateLine) (left : Nat) (pending : Option Pending)
  deriving DecidableEq, Repr

/-- Direction sense (R98). -/
inductive Sense where
  | normal
  | reversed
  deriving DecidableEq, Repr

/-- Edge polarity (R98). -/
inductive Polarity where
  | rising
  | falling
  deriving DecidableEq, Repr

/-- Report mode (R98). -/
inductive ReportMode where
  | all
  | defects
  | none
  deriving DecidableEq, Repr

/-- The line configuration (R98); its gate mode setting is `Line.gateMode`. -/
structure LineConfig where
  valid         : Bool
  diverter      : Nat
  window        : Nat
  deadTime      : Nat
  timeout       : Nat
  sense         : Sense
  polarity      : Polarity
  report        : ReportMode
  holdOnContain : Bool
  holdOnTimeout : Bool
  holdOnLate    : Bool
  deriving DecidableEq, Repr

/-- The line controller (R97). -/
structure Line where
  position   : Position
  /-- The levels of ENC_A and ENC_B at the latest sample; none before the first after a full reset. -/
  lastSample : Option (Bool × Bool)
  /-- The settled level of BOARD_EDGE is high. -/
  settled    : Bool
  runCount   : Nat
  serial     : Serial
  untracked  : Nat
  queue      : List Board
  lateNote   : Option LateNote
  gateMode   : GateMode
  driver     : GateDriver
  config     : LineConfig
  deriving DecidableEq, Repr

/-! ### Error logs (07) -/

/-- The four sources of errors (R123). -/
inductive LogSource where
  | capture
  | system
  | memory
  | line
  deriving DecidableEq, Repr

/-- The error codes (R124). -/
inductive ErrorCode where
  | cAddrParity
  | cDataParity
  | cLaneRange
  | cOrder
  | cMailboxForeign
  | sAddrParity
  | sDataParity
  | sConsumerRange
  | mPassError
  | mOwnError
  | mTimeout
  | lEncoder
  | lFrameTimeout
  | lLate
  | lQueueFull
  deriving DecidableEq, Repr

/-- Severities, MINOR 1, DEGRADED 2, FATAL 3 (R123). -/
inductive Severity where
  | minor
  | degraded
  | fatal
  deriving DecidableEq, Repr

/-- An error as a log holds it (R123). -/
structure LoggedError where
  code     : ErrorCode
  severity : Severity
  master   : MasterId
  addr     : Addr
  serial   : Serial
  deriving DecidableEq, Repr

/-- An error log (R123). -/
structure ErrorLog where
  held     : Option LoggedError
  overflow : Bool
  deriving DecidableEq, Repr

/-- The four logs (R123). -/
structure ErrorLogs where
  capture : ErrorLog
  system  : ErrorLog
  memory  : ErrorLog
  line    : ErrorLog
  deriving DecidableEq, Repr

/-! ### Record writer (09) -/

/-- A board result (R106). -/
structure BoardResult where
  frame     : FrameNumber
  serial    : Serial
  programId : BitVec 32
  verdict   : BoardVerdict
  counts    : VerdictCounts
  lost      : Nat
  late      : Bool
  notImaged : Bool
  unmatched : Bool
  truncated : Bool
  timeout   : Bool
  action    : GateAction
  deriving DecidableEq, Repr

/-- A notice result (R126). -/
structure NoticeResult where
  error       : LoggedError
  /-- The change was a replacement; a take otherwise. -/
  replacement : Bool
  overflow    : Bool
  deriving DecidableEq, Repr

/-- A record of the output queue (R168). -/
inductive RingRecord where
  | joint (result : JointResult)
  | board (result : BoardResult)
  | notice (result : NoticeResult)
  deriving DecidableEq, Repr

/-- A ring configuration (R167). -/
structure Ring where
  base  : Addr
  size  : Nat
  irqOn : Bool
  deriving DecidableEq, Repr

/-- A consumer update: the value, and the master ID and address of the write that carried it (R177). -/
structure ConsumerUpdate where
  value  : Counter
  master : MasterId
  addr   : Addr
  deriving DecidableEq, Repr

/-- The record writer (R167). -/
structure RecordWriter where
  queue      : List RingRecord
  ring       : Option Ring
  producer   : Counter
  consumer   : Counter
  /-- The stamp of the slot write in progress. -/
  slotWrite  : Option Nat
  heldUpdate : Option ConsumerUpdate
  drops      : Nat
  /-- The level of RING_IRQ (R179). -/
  ringIrq    : Bool
  deriving DecidableEq, Repr

/-! ### Mailbox decoder (10) -/

/-- Outcome of a command; `none` before any was taken (R185, R186). -/
inductive CommandOutcome where
  | none
  | done
  | started
  | busy
  | badArgument
  | wrongState
  | unknownKind
  deriving DecidableEq, Repr

/-- Reset cause (R196). -/
inductive ResetCause where
  | power
  | pin
  | command
  deriving DecidableEq, Repr

/-- The mailbox decoder (R182 to R197). -/
structure Decoder where
  windowBase   : Addr
  slot         : Vector Byte 64
  consumerWord : Vector Byte 4
  commandCount : Counter
  lastKind     : BitVec 32
  lastOutcome  : CommandOutcome
  resetPending : Bool
  resetCause   : ResetCause
  deriving DecidableEq, Repr

/-! ### The block and the machine -/

/-- Every block of the part (00 section 2) but for the queue of commands. -/
structure Block where
  capture       : Port
  system        : Port
  memory        : MemoryPort
  master        : InternalMaster
  decoder       : Decoder
  store         : ProgramStore
  tracker       : FrameTracker
  joints        : JointSet
  tally         : Tally
  line          : Line
  writer        : RecordWriter
  logs          : ErrorLogs
  /-- Block sequence of the status writer (R196). -/
  blockSequence : Counter
  /-- The number the next request taken or handed over gets (log entry 14). -/
  stamp         : Nat
  deriving DecidableEq, Repr

/-- The machine: the block, and the commands that wait, first in, first out (log entry 1). -/
structure State where
  block   : Block
  pending : List Instr
  deriving DecidableEq, Repr

/-- Reasons a command could stop the machine with a fault. There are none: the manual names no event that
stops the block (log entry 30). -/
inductive Fault : Type where
  deriving DecidableEq, Repr

/-- Reasons a command could be refused. -/
inductive Refusal where
  /-- A command without a meaning yet; raised by `exec`'s own arms only, and by none of them in this model.
  Safe: nothing runs. -/
  | notModelled (mnemonic : String)
  deriving DecidableEq, Repr

/-! ### The state after a full reset -/

/-- A port after a full reset (R133, R165). -/
def Port.fresh (policy : Policy) : Port where
  buffer := []
  failing := []
  reads := []
  unanswered := []
  containment := .opened
  policy := policy
  failResponse := .allOnes
  given := []

/-- The line configuration after a full reset (R98). -/
def LineConfig.fresh : LineConfig where
  valid := false
  diverter := 0
  window := 0
  deadTime := 0
  timeout := 0
  sense := .normal
  polarity := .rising
  report := .all
  holdOnContain := false
  holdOnTimeout := false
  holdOnLate := false

/-- The line controller after a full reset, its gate driver IDLE (R97). -/
def Line.fresh : Line where
  position := 0
  lastSample := none
  settled := false
  runCount := 0
  serial := 0
  untracked := 0
  queue := []
  lateNote := none
  gateMode := .off
  driver := .idle
  config := .fresh

/-- The record writer after a full reset (R167). -/
def RecordWriter.fresh : RecordWriter where
  queue := []
  ring := none
  producer := 0
  consumer := 0
  slotWrite := none
  heldUpdate := none
  drops := 0
  ringIrq := false

/-- An empty log (R123). -/
def ErrorLog.fresh : ErrorLog := ⟨none, false⟩

/-- The frame tally with every count 0 and the indicator clear (R92, R95). -/
def Tally.fresh : Tally := ⟨⟨0, 0, 0, 0, 0, 0⟩, false, 0⟩

/-- The frame tracker after a full reset (R43). -/
def FrameTracker.fresh : FrameTracker where
  state := .idle
  number := 0
  closeKind := none
  opening := 0
  binding := none
  progress := []
  burst := none

/-- The mailbox window base that the strap MBX_SEL selects (R182). -/
def windowBaseOf (mbxSel : BitVec 3) : Addr :=
  BitVec.ofNat 40 (0x7FF0000000 + mbxSel.toNat * 0x10000)

/-- The mailbox decoder after a full reset (R197). -/
def Decoder.fresh (cause : ResetCause) (mbxSel : BitVec 3) : Decoder where
  windowBase := windowBaseOf mbxSel
  slot := Vector.replicate 64 0
  consumerWord := Vector.replicate 4 0
  commandCount := 0
  lastKind := 0
  lastOutcome := .none
  resetPending := false
  resetCause := cause

/-- Every block at its full reset values, the status rewrite that the reset asks for already handed to the
internal master (R196), the gate driver IDLE. -/
def Block.fresh (cause : ResetCause) (mbxSel : BitVec 3) (capturePolicy : Policy) : Block where
  capture := .fresh capturePolicy
  system := .fresh .mark
  memory := ⟨[], Config.defaultResponseLimit, .internal, []⟩
  master := ⟨[⟨0, .statusBlock⟩], []⟩
  decoder := .fresh cause mbxSel
  store := ⟨.empty, .empty, ⟨none, none, 0⟩⟩
  tracker := .fresh
  joints := ⟨[], 0⟩
  tally := .fresh
  line := .fresh
  writer := .fresh
  logs := ⟨.fresh, .fresh, .fresh, .fresh⟩
  blockSequence := 0
  stamp := 1

/-- The machine right after power-on with the straps MBX_SEL and IMG_CONTAIN low (DESIGN CHOICE, log entry 4),
no command waiting. -/
def State.reset : State where
  block := .fresh .power 0 .mark
  pending := []

end Sys2Proof.Machine
end

