-- ==== Sys2Proof/Machine/Bytes.lean ====
section
/-! DEFINITION. Bits, bytes and byte ranges: parity, the little-endian byte order of the manual, beats as bytes,
and the byte range of a request. -/

namespace Sys2Proof.Machine

/-- Whether a bit vector holds an odd number of ones. -/
def oddOnes {w : Nat} (x : BitVec w) : Bool :=
  (List.range w).foldl (fun p i => p ^^ x.getLsbD i) false

/-- Byte `k` of a beat, `k` = 0 at the lowest address. -/
def beatByte (b : Beat) (k : Nat) : Byte := b.extractLsb' (8 * k) 8

/-- The 16 bytes of a beat in address order. -/
def beatBytes (b : Beat) : List Byte := (List.range 16).map (beatByte b)

/-- The odd parity bits of a beat's bytes: each bit and its byte hold an odd number of ones (R146). -/
def beatParity (b : Beat) : BeatBits :=
  (List.range 16).foldl (fun acc k => if oddOnes (beatByte b k) then acc else acc ||| (1#16 <<< k)) 0

/-- A beat with at least one byte whose parity bit is wrong, strobes not considered (R130). -/
def beatIsBad (b : WriteBeat) : Bool := b.parity != beatParity b.data

/-- The number that bytes in address order stand for, little-endian (R198). -/
def leNat : List Byte → Nat
  | [] => 0
  | b :: bs => b.toNat + 256 * leNat bs

/-- The field of `size` bytes at `offset` of a byte string (R198). -/
def fieldAt (bytes : List Byte) (offset size : Nat) : Nat := leNat ((bytes.drop offset).take size)

/-- A number as `size` bytes, little-endian (R198). -/
def leBytes : Nat → Nat → List Byte
  | 0, _ => []
  | size + 1, n => BitVec.ofNat 8 n :: leBytes size (n / 256)

/-- The beat that holds up to 16 bytes in address order, its other bytes 0. -/
def packBeat (bytes : List Byte) : Beat := BitVec.ofNat 128 (leNat (bytes.take 16))

/-- `n` beats that hold a byte string. -/
def packBeats : Nat → List Byte → List Beat
  | 0, _ => []
  | n + 1, bytes => packBeat bytes :: packBeats n (bytes.drop 16)

/-- A range of byte addresses, both ends included. -/
structure Range where
  lo : Nat
  hi : Nat
  deriving DecidableEq, Repr

/-- Two ranges share at least one byte address. -/
def Range.overlaps (a b : Range) : Bool := decide (a.lo ≤ b.hi) && decide (b.lo ≤ a.hi)

/-- A range lies wholly within another. -/
def Range.within (a b : Range) : Bool := decide (b.lo ≤ a.lo) && decide (a.hi ≤ b.hi)

/-- The number of byte addresses, 2^40. -/
def addrLimit : Nat := 2 ^ 40

/-- The byte range of a request: from its address to the last byte of its last beat, or to the last address of
the 40-bit space where it would run past it (R147). -/
def byteRange (addr : Addr) (beats : BeatField) : Range where
  lo := addr.toNat
  hi := min (addrLimit - 1) (addr.toNat / 16 * 16 + 16 * beatCount beats - 1)

/-- The parity bit of a request: odd parity over master ID, address, beat count and direction (R146). The part
of beat count and direction is free (log entry 5). -/
def requestParity (master : MasterId) (addr : Addr) (beats : BeatField) (dir : Direction) : Bool :=
  !(oddOnes master ^^ oddOnes addr ^^ Config.controlParity beats dir)

/-- The request parity check of R129. -/
def requestParityOk (r : Request) (dir : Direction) : Bool :=
  r.parity == requestParity r.master r.addr r.beats dir

end Sys2Proof.Machine
end

