-- ==== Sys2Proof/Machine/Program.lean ====
section
/-! DEFINITION. The program image: its layout (R200), its checks (R14 to R17), the validation of what a load has
received, and the banks as the other blocks ask for them (R5, R18, R24). -/

namespace Sys2Proof.Machine

/-! ### Banks -/

/-- A bank of the store. -/
def ProgramStore.bank (s : ProgramStore) : BankId → Bank
  | .bank0 => s.bank0
  | .bank1 => s.bank1

/-- The store with one bank replaced. -/
def ProgramStore.setBank (s : ProgramStore) (i : BankId) (b : Bank) : ProgramStore :=
  match i with
  | .bank0 => { s with bank0 := b }
  | .bank1 => { s with bank1 := b }

/-- The other bank. -/
def BankId.other : BankId → BankId
  | .bank0 => .bank1
  | .bank1 => .bank0

/-- The load of a LOADING bank. -/
def Bank.load? : Bank → Option Load
  | .loading l => some l
  | _ => none

/-- The program of a READY bank. -/
def Bank.ready? : Bank → Option Program
  | .ready p => some p
  | _ => none

/-- The program of an ACTIVE bank. -/
def Bank.active? : Bank → Option Program
  | .active p => some p
  | _ => none

/-- The first bank for which a property holds. -/
def ProgramStore.findBank (s : ProgramStore) (f : Bank → Bool) : Option BankId :=
  if f s.bank0 then some .bank0 else if f s.bank1 then some .bank1 else none

/-- The LOADING bank (R6: at most one). -/
def ProgramStore.loadingBank (s : ProgramStore) : Option BankId := s.findBank fun b => b.load?.isSome

/-- The READY bank (R6: at most one). -/
def ProgramStore.readyBank (s : ProgramStore) : Option BankId := s.findBank fun b => b.ready?.isSome

/-- The ACTIVE bank (R6: at most one). -/
def ProgramStore.activeBank (s : ProgramStore) : Option BankId := s.findBank fun b => b.active?.isSome

/-- The load in progress. -/
def ProgramStore.load? (s : ProgramStore) : Option Load :=
  s.loadingBank.bind fun i => (s.bank i).load?

/-- The program of the READY bank. -/
def ProgramStore.readyProgram (s : ProgramStore) : Option Program :=
  s.readyBank.bind fun i => (s.bank i).ready?

/-- The program of the ACTIVE bank. -/
def ProgramStore.activeProgram (s : ProgramStore) : Option Program :=
  s.activeBank.bind fun i => (s.bank i).active?

/-- The program of the candidate bank: the READY bank if there is one, otherwise the ACTIVE bank (R24). -/
def ProgramStore.candidate (s : ProgramStore) : Option Program :=
  match s.readyProgram with
  | some p => some p
  | none => s.activeProgram

/-- The target of a new load: the READY bank; otherwise the bank that is not ACTIVE; otherwise bank 0 (R8). -/
def ProgramStore.loadTarget (s : ProgramStore) : BankId :=
  match s.readyBank, s.activeBank with
  | some i, _ => i
  | none, some i => i.other
  | none, none => .bank0

/-- A LOAD_PROGRAM that is carried out: the target becomes LOADING, the record notes it (R7, R8). -/
def ProgramStore.startLoad (s : ProgramStore) (address : Addr) : ProgramStore :=
  let load : Load :=
    { address := address, header := none, recipes := [], joints := [], received := [], nextOffset := 0,
      outstanding := none }
  { s.setBank s.loadTarget (.loading load) with record := ⟨some s.loadTarget, none, 0⟩ }

/-- The end of a load without success: the LOADING bank becomes EMPTY, the record takes the outcome (R9, R12,
R13, R21). Without a load nothing changes. -/
def ProgramStore.endLoad (s : ProgramStore) (outcome : LoadOutcome) (index : Nat) : ProgramStore :=
  match s.loadingBank with
  | none => s
  | some i => { s.setBank i .empty with record := ⟨s.record.target, some outcome, index⟩ }

/-- The load in progress replaced. -/
def ProgramStore.setLoad (s : ProgramStore) (l : Load) : ProgramStore :=
  match s.loadingBank with
  | none => s
  | some i => s.setBank i (.loading l)

/-- The success of a load: the bank becomes READY, the record takes LOADED with index 0 (R17). -/
def ProgramStore.finishLoad (s : ProgramStore) (p : Program) : ProgramStore :=
  match s.loadingBank with
  | none => s
  | some i => { s.setBank i (.ready p) with record := ⟨s.record.target, some .loaded, 0⟩ }

/-- The exchange at frame open: a READY bank becomes ACTIVE and the bank that was ACTIVE becomes EMPTY; without a
READY bank nothing changes (R18). -/
def ProgramStore.exchange (s : ProgramStore) : ProgramStore :=
  match s.readyBank, s.readyProgram with
  | some i, some p =>
    match s.activeBank with
    | some j => (s.setBank j .empty).setBank i (.active p)
    | none => s.setBank i (.active p)
  | _, _ => s

/-! ### Programs -/

/-- The byte range of a program's frame window (R1). -/
def Header.window (h : Header) : Range where
  lo := h.base.toNat
  hi := h.base.toNat + h.height * h.pitch - 1

/-- A column lies in a lane's range (R2). -/
def Lane.holds (l : Lane) (column : Nat) : Bool := decide (l.first ≤ column) && decide (column ≤ l.last)

/-- Two column ranges share a column. -/
def columnsMeet (a0 a1 b0 b1 : Nat) : Bool := decide (a0 ≤ b1) && decide (b0 ≤ a1)

/-- The lane of a program that a master ID belongs to, by index (R24). -/
def Header.laneOf (h : Header) (m : MasterId) : Option Nat := h.lanes.findIdx? (·.master == m)

/-- A recipe with every threshold 0, read for a recipe index that a validated program does not have. -/
def Recipe.zero : Recipe := ⟨0, 0, 0, 0, 0, 0, 0, 0, 0⟩

/-- A recipe by its index. -/
def Program.recipe (p : Program) (i : Nat) : Recipe := p.recipes.getD i Recipe.zero

/-- The length of an image in bytes (R200). -/
def Header.imageLength (h : Header) : Nat := 64 + 16 * h.recipeCount + 24 * h.jointCount

/-! ### Layout and checks -/

/-- Lane entry `k` of a header (R200). -/
def parseLane (bytes : List Byte) (k : Nat) : Lane where
  master := BitVec.ofNat 8 (fieldAt bytes (32 + 8 * k) 1)
  first := fieldAt bytes (32 + 8 * k + 2) 2
  last := fieldAt bytes (32 + 8 * k + 4) 2

/-- The header fields of R200 from 64 bytes. The frame window base is taken as its low 40 bits; `checkGeometry`
refuses a larger one. -/
def parseHeader (bytes : List Byte) : Header where
  programId := BitVec.ofNat 32 (fieldAt bytes 4 4)
  base := BitVec.ofNat 40 (fieldAt bytes 8 8)
  width := fieldAt bytes 16 2
  height := fieldAt bytes 18 2
  pitch := fieldAt bytes 20 4
  lanes := (List.range (fieldAt bytes 24 1)).map (parseLane bytes)
  recipeCount := fieldAt bytes 25 1
  jointCount := fieldAt bytes 26 2

/-- The check FORMAT of R14. -/
def checkFormat (bytes : List Byte) : Bool :=
  let h := parseHeader bytes
  decide (fieldAt bytes 0 4 = 7) && decide (1 ≤ h.recipeCount) && decide (h.recipeCount ≤ 64)
    && decide (1 ≤ h.jointCount) && decide (h.jointCount ≤ 4096)

/-- The check GEOMETRY of R14; the base is read as a 64-bit number (R198). -/
def checkGeometry (bytes : List Byte) : Bool :=
  let h := parseHeader bytes
  let base := fieldAt bytes 8 8
  decide (base % 16 = 0) && decide (1 ≤ h.width) && decide (h.width ≤ 8192) && decide (1 ≤ h.height)
    && decide (h.height ≤ 32768) && decide (h.pitch % 16 = 0) && decide (h.width * 4 ≤ h.pitch)
    && decide (h.pitch ≤ 65536) && decide (base + h.height * h.pitch - 1 < addrLimit)

/-- Lanes in ascending order of columns without overlap (R15). -/
def lanesAscend : List Lane → Bool
  | a :: b :: rest => decide (a.last < b.first) && lanesAscend (b :: rest)
  | _ => true

/-- The check LANES of R15. -/
def checkLanes (bytes : List Byte) : Bool :=
  let h := parseHeader bytes
  let count := fieldAt bytes 24 1
  decide (1 ≤ count) && decide (count ≤ 4)
    && h.lanes.all (fun l => decide (l.first ≤ l.last) && decide (l.last < h.width))
    && lanesAscend h.lanes && decide ((h.lanes.map (·.master)).Nodup)

/-- A recipe entry (R200). -/
def parseRecipe (bytes : List Byte) : Recipe where
  darkSum := fieldAt bytes 0 2
  brightMin := fieldAt bytes 2 2
  minValid := fieldAt bytes 4 2
  satMax := fieldAt bytes 6 2
  darkMax := fieldAt bytes 8 2
  slopeMin := fieldAt bytes 10 2
  steepMax := fieldAt bytes 12 2
  margin := fieldAt bytes 14 1
  bridgeRows := fieldAt bytes 15 1

/-- The check RECIPE of R16. -/
def Recipe.inRange (r : Recipe) : Bool :=
  decide (r.darkSum ≤ 3069) && decide (r.brightMin ≤ 3069) && decide (r.minValid ≤ 256)
    && decide (r.satMax ≤ 256) && decide (r.darkMax ≤ 256) && decide (r.slopeMin ≤ 256)
    && decide (r.steepMax ≤ 256)

/-- The weight that a weight code names (R200). -/
def weightOfCode (code : Nat) : Option Weight :=
  if code = 1 then some .critical else if code = 2 then some .advisory else none

/-- The region of a joint entry (R200). -/
def parseRegion (bytes : List Byte) : Rect where
  x0 := fieldAt bytes 2 2
  x1 := fieldAt bytes 4 2
  y0 := fieldAt bytes 6 2
  y1 := fieldAt bytes 8 2

/-- The gap of a joint entry, absent when bit 0 of the gap flag is clear (R200). -/
def parseGap (bytes : List Byte) : Option Rect :=
  if fieldAt bytes 12 1 % 2 = 1 then
    some ⟨fieldAt bytes 14 2, fieldAt bytes 16 2, fieldAt bytes 18 2, fieldAt bytes 20 2⟩
  else none

/-- Every column of a region lies within the range of some lane (R16). -/
def columnsInLanes (h : Header) (x0 x1 : Nat) : Bool :=
  (List.range (x1 + 1 - x0)).all fun d => h.lanes.any fun l => l.holds (x0 + d)

/-- The check JOINT_RANGE of R16, but for the weight code. -/
def checkRegion (h : Header) (r : Rect) (recipe : Nat) : Bool :=
  decide (r.x0 ≤ r.x1) && decide (r.y0 ≤ r.y1) && decide (r.x1 < h.width) && decide (r.y1 < h.height)
    && decide (r.x1 - r.x0 + 1 ≤ 256) && decide (r.y1 - r.y0 + 1 ≤ 256)
    && columnsInLanes h r.x0 r.x1 && decide (recipe < h.recipeCount)

/-- The check GAP of R16. -/
def checkGap (h : Header) (region : Rect) (g : Rect) : Bool :=
  decide (g.x0 ≤ g.x1) && decide (g.y0 ≤ g.y1) && decide (g.x1 < h.width) && decide (g.y1 < h.height)
    && decide (g.x1 - g.x0 + 1 ≤ 64) && decide (g.y1 - g.y0 + 1 ≤ 256)
    && h.lanes.any (fun l => l.holds g.x0 && l.holds g.x1) && decide (region.y0 ≤ g.y0)

/-- The joint that a joint entry stands for, or the first check of R16 that fails; `previous` is the joint
before it in the table. -/
def checkJoint (h : Header) (previous : Option Joint) (bytes : List Byte) : Except LoadOutcome Joint :=
  let region := parseRegion bytes
  let recipe := fieldAt bytes 10 1
  let ordered := match previous with
    | none => true
    | some j => decide (j.region.y0 ≤ region.y0)
  if !ordered then .error .jointOrder
  else if !checkRegion h region recipe then .error .jointRange
  else match weightOfCode (fieldAt bytes 11 1) with
    | none => .error .jointRange
    | some weight =>
      let joint : Joint := ⟨BitVec.ofNat 16 (fieldAt bytes 0 2), region, recipe, weight, parseGap bytes⟩
      match parseGap bytes with
      | none => .ok joint
      | some g => if checkGap h region g then .ok joint else .error .gap

/-- What the validation of the bytes received so far gives: more reads are needed, a check failed with its
index, or the last joint has passed. -/
inductive Validation where
  | more (load : Load)
  | failed (outcome : LoadOutcome) (index : Nat)
  | passed (program : Program)
  deriving DecidableEq, Repr

/-- Validates recipes and then joints as their bytes stand complete in `received`, at most `fuel` items (R11,
R16). -/
def validateItems (h : Header) : Nat → Load → Validation
  | 0, l => .more l
  | fuel + 1, l =>
    if l.recipes.length < h.recipeCount then
      if l.received.length < 16 then .more l
      else
        let r := parseRecipe l.received
        if r.inRange then
          validateItems h fuel { l with recipes := l.recipes ++ [r], received := l.received.drop 16 }
        else .failed .recipe l.recipes.length
    else if l.received.length < 24 then .more l
    else
      match checkJoint h l.joints.getLast? l.received with
      | .error e => .failed e l.joints.length
      | .ok j =>
        let joints := l.joints ++ [j]
        if joints.length < h.jointCount then
          validateItems h fuel { l with joints := joints, received := l.received.drop 24 }
        else .passed ⟨h, l.recipes, joints⟩

/-- Validates what a load has received: the header first (R14, R15), then the items. -/
def Load.validate (l : Load) : Validation :=
  match l.header with
  | some h => validateItems h (l.received.length / 16 + 1) l
  | none =>
    if l.received.length < 64 then .more l
    else if !checkFormat l.received then .failed .format 0
    else if !checkGeometry l.received then .failed .geometry 0
    else if !checkLanes l.received then .failed .lanes 0
    else .more { l with header := some (parseHeader l.received), received := l.received.drop 64 }

/-- The beat count of a load's next read: the four beats of the header, then 16 beats or what is left of the
image (R11, R200). -/
def Load.nextBeats (l : Load) : BeatField :=
  match l.header with
  | none => 3
  | some h => BitVec.ofNat 4 (min 16 ((h.imageLength - l.nextOffset + 15) / 16) - 1)

/-- The address of a load's next read; free at or above 2^40 (log entry 7). -/
def Load.nextAddress (l : Load) : Addr :=
  let a := l.address.toNat + l.nextOffset
  if a < addrLimit then BitVec.ofNat 40 a else Config.addressPastEnd a

/-- The failing item index of FETCH_ERROR for a failed read that begins at this offset: 0 for the header,
otherwise the table index of the item that holds the read's first byte (R12). In a read that carries recipes and
joints the last recipes come first, and R12 does not say which of the two tables its "lowest-numbered" counts in:
the recipe is taken (log entry 40). -/
def Load.failIndex (l : Load) (offset : Nat) : Nat :=
  match l.header with
  | none => 0
  | some h =>
    if offset < 64 then 0
    else if offset < 64 + 16 * h.recipeCount then (offset - 64) / 16
    else (offset - (64 + 16 * h.recipeCount)) / 24

end Sys2Proof.Machine
end

