-- ==== Sys2Proof/Machine/Flags.lean ====
section
/-! DEFINITION. Levels and flags that the spec computes from other state: the gate outputs, RING_IRQ, ring
occupancy, comparison of positions, severities and codes. -/

namespace Sys2Proof.Machine

/-! ### Gate outputs (R112) -/

/-- PASS_GATE is active. -/
def GateDriver.passGate : GateDriver → Bool
  | .driving .pass _ _ => true
  | _ => false

/-- REJECT_GATE is active. -/
def GateDriver.rejectGate : GateDriver → Bool
  | .driving .reject _ _ => true
  | _ => false

/-! ### Positions (00 section 5.3, R99) -/

/-- The conveyor has reached a position: the signed 32-bit difference is zero or positive. -/
def reached (position target : Position) : Bool := decide (0 ≤ (position - target).toInt)

/-- The later of two positions, by the signed comparison (R113). -/
def laterOf (a b : Position) : Position := if reached a b then a else b

/-! ### The ring (R167, R179) -/

/-- Ring occupancy: producer minus consumer, unsigned 32 bits (R167). -/
def RecordWriter.occupancy (w : RecordWriter) : Nat := (w.producer - w.consumer).toNat

/-- The level RING_IRQ has by R179. -/
def RecordWriter.irqLevel (w : RecordWriter) : Bool :=
  match w.ring with
  | some r => r.irqOn && (w.producer != w.consumer)
  | none => false

/-- RING_IRQ re-evaluated (R179). -/
def RecordWriter.updateIrq (w : RecordWriter) : RecordWriter := { w with ringIrq := w.irqLevel }

/-- The byte range of a ring (R167). -/
def Ring.range (r : Ring) : Range where
  lo := r.base.toNat
  hi := r.base.toNat + 32 * r.size - 1

/-- The address of the slot for a producer index (R174). -/
def Ring.slotAddr (r : Ring) (producer : Counter) : Addr :=
  r.base + BitVec.ofNat 40 (32 * (producer.toNat % r.size))

/-! ### Severities and codes (R123, R124, R201) -/

/-- The number of a severity (R123). -/
def Severity.code : Severity → Nat
  | .minor => 1
  | .degraded => 2
  | .fatal => 3

/-- The log an error code belongs to (R124). -/
def ErrorCode.source : ErrorCode → LogSource
  | .cAddrParity | .cDataParity | .cLaneRange | .cOrder | .cMailboxForeign => .capture
  | .sAddrParity | .sDataParity | .sConsumerRange => .system
  | .mPassError | .mOwnError | .mTimeout => .memory
  | .lEncoder | .lFrameTimeout | .lLate | .lQueueFull => .line

/-- The severity of a data parity error under a policy (R124). -/
def Policy.severity : Policy → Severity
  | .mark => .degraded
  | .contain => .fatal

/-- The code a port reports for failed request parity (R129). -/
def addrParityCode : PortId → ErrorCode
  | .capture => .cAddrParity
  | .system => .sAddrParity

/-- The code a port reports for failed data parity (R130). -/
def dataParityCode : PortId → ErrorCode
  | .capture => .cDataParity
  | .system => .sDataParity

/-! ### The mailbox window (R182) -/

/-- The byte range of the mailbox window. -/
def Decoder.window (d : Decoder) : Range where
  lo := d.windowBase.toNat
  hi := d.windowBase.toNat + Config.windowSize - 1

/-- The address at an offset of the mailbox window. -/
def Decoder.windowAddr (d : Decoder) (offset : Nat) : Addr := d.windowBase + BitVec.ofNat 40 offset

end Sys2Proof.Machine
end

