-- ==== Sys2Proof/Machine/Gate.lean ====
section
/-! DEFINITION. The gate driver and the gate mode, as operations on the line controller alone (06 sections 6.6 to
6.9). -/

namespace Sys2Proof.Machine

/-- The action state of the late note changes when it is the note of this board; only DRIVEN can change
(R111, R112). -/
def Line.setNote (l : Line) (owner : Serial) (action : GateAction) : Line :=
  match l.lateNote with
  | some n =>
    if n.serial = owner ∧ n.action = .driven then { l with lateNote := some { n with action := action } } else l
  | none => l

/-- The action of a board is cut or replaced: its late note, if any, says CUT (R112). -/
def Line.cutOwner (l : Line) (owner : Option Serial) : Line :=
  match owner with
  | some o => l.setNote o .cut
  | none => l

/-- DEAD ends: the driver acts on its pending action (R116). A line whose end position has been reached is
active and inactive at once, and DEAD begins again with no pending action, and ends at once for a dead time
of 0 (R112; log entry 26). -/
def Line.endDead (l : Line) (pending : Option Pending) : Line :=
  match pending with
  | none => { l with driver := .idle }
  | some .hold => { l with driver := .driving .reject none none }
  | some (.action kind endAt owner) =>
    if reached l.position endAt then
      if l.config.deadTime = 0 then { l with driver := .idle }
      else { l with driver := .dead kind l.config.deadTime none }
    else { l with driver := .driving kind (some endAt) (some owner) }

/-- The driver enters DEAD with the line that went inactive and a pending action; DEAD ends at once when the
dead time is 0 (R112). -/
def Line.enterDead (l : Line) (line : GateLine) (pending : Option Pending) : Line :=
  if l.config.deadTime = 0 then l.endDead pending
  else { l with driver := .dead line l.config.deadTime pending }

/-- A line becomes active for an action; if the position has already reached the end, it is active and inactive
at once (R113). -/
def Line.drive (l : Line) (kind : GateLine) (endAt : Position) (owner : Serial) : Line :=
  if reached l.position endAt then l.enterDead kind none
  else { l with driver := .driving kind (some endAt) (some owner) }

/-- The gate driver takes an action (R113 to R115). -/
def Line.takeAction (l : Line) (kind : GateLine) (endAt : Position) (owner : Serial) : Line :=
  match l.driver with
  | .idle => l.drive kind endAt owner
  | .driving k held o =>
    if k = kind then { l with driver := .driving k (held.map (laterOf · endAt)) (some owner) }
    else (l.cutOwner o).enterDead k (some (.action kind endAt owner))
  | .dead line left none =>
    if line = kind then l.drive kind endAt owner
    else { l with driver := .dead line left (some (.action kind endAt owner)) }
  | .dead line left (some (.action k held o)) =>
    if k = kind then { l with driver := .dead line left (some (.action k (laterOf held endAt) owner)) }
    else { l.cutOwner (some o) with driver := .dead line left (some (.action kind endAt owner)) }
  | .dead _ _ (some .hold) => l

/-- The line controller takes the action of a due board as the gate mode says, and gives the board's action
state its first value (R111). -/
def Line.gateAction (l : Line) (kind : GateLine) (board : Board) : Line × GateAction :=
  match l.gateMode with
  | .active => (l.takeAction kind (board.due + BitVec.ofNat 32 l.config.window) board.serial, .driven)
  | .off => (l, .off)
  | .held => (l, .forced)

/-- The end test of the gate window at a change of the position (R117). -/
def Line.windowEnd (l : Line) : Line :=
  match l.driver with
  | .driving kind (some endAt) _ => if reached l.position endAt then l.enterDead kind none else l
  | _ => l

/-- The driver lets go of its actions: a change of the gate mode to OFF (R118), and an inspection reset in
mode ACTIVE or OFF (R122). -/
def Line.letGo (l : Line) : Line :=
  match l.driver with
  | .idle => l
  | .driving kind _ o => (l.cutOwner o).enterDead kind none
  | .dead line left (some (.action _ _ o)) =>
    { l.cutOwner (some o) with driver := .dead line left none }
  | .dead line left (some .hold) => { l with driver := .dead line left none }
  | .dead _ _ none => l

/-- The gate mode enters HELD: the driver drives the reject line without an end, or has the hold pending
(R119). -/
def Line.enterHeld (l : Line) : Line :=
  let l := { l with gateMode := .held }
  match l.driver with
  | .idle => { l with driver := .driving .reject none none }
  | .driving .reject _ o => { l with driver := .driving .reject none o }
  | .driving .pass _ o => (l.cutOwner o).enterDead .pass (some .hold)
  | .dead line left (some (.action _ _ o)) =>
    { l.setNote o .forced with driver := .dead line left (some .hold) }
  | .dead line left _ => { l with driver := .dead line left (some .hold) }

/-- The gate mode leaves HELD for ACTIVE (R120). -/
def Line.release (l : Line) : Line :=
  let l := { l with gateMode := .active }
  match l.driver with
  | .driving .reject none _ => l.enterDead .reject none
  | .dead line left (some .hold) => { l with driver := .dead line left none }
  | _ => l

/-- The gate driver after a full reset: an active line goes inactive into DEAD with the dead time that was in
force before the reset, and pending actions are discarded (R121). -/
def Line.resetDriver (l : Line) : GateDriver :=
  match l.driver with
  | .idle => .idle
  | .driving kind _ _ => if l.config.deadTime = 0 then .idle else .dead kind l.config.deadTime none
  | .dead line left _ => .dead line left none

/-- The line controller's part of an inspection reset: the board queue and the late note are emptied, and the
driver lets go unless the gate is held (R122). -/
def Line.inspectionReset (l : Line) : Line :=
  let l := { l with queue := [], lateNote := none }
  match l.gateMode with
  | .held => l
  | _ => l.letGo

end Sys2Proof.Machine
end

