-- ==== Sys2Proof/Machine/Layout.lean ====
section
/-! DEFINITION. The byte layouts that the part writes: the three records (R201) and the status block (R203). -/

namespace Sys2Proof.Machine

/-- A Bool as a code of one. -/
def bit (b : Bool) : Nat := if b then 1 else 0

/-! ### Codes of R201 and R203 -/

def Verdict.code : Verdict → Nat
  | .ok => 0
  | .excess => 1
  | .insufficient => 2
  | .nonwet => 3
  | .bridge => 4
  | .unreadable => 5

def Cause.code : Cause → Nat
  | .truncated => 1
  | .damaged => 2
  | .noValid => 3
  | .lowValid => 4
  | .saturated => 5
  | .openSetFull => 6
  | .notReached => 7

def Defects.code (d : Defects) : Nat :=
  bit d.excess + 2 * bit d.insufficient + 4 * bit d.nonwet + 8 * bit d.bridge

def BoardVerdict.code : BoardVerdict → Nat
  | .pass => 0
  | .reject => 1

def GateAction.code : GateAction → Nat
  | .none => 0
  | .driven => 1
  | .cut => 2
  | .forced => 3
  | .off => 4

def LogSource.code : LogSource → Nat
  | .capture => 1
  | .system => 2
  | .memory => 3
  | .line => 4

def ErrorCode.code : ErrorCode → Nat
  | .cAddrParity => 1
  | .cDataParity => 2
  | .cLaneRange => 3
  | .cOrder => 4
  | .cMailboxForeign => 5
  | .sAddrParity => 1
  | .sDataParity => 2
  | .sConsumerRange => 3
  | .mPassError => 1
  | .mOwnError => 2
  | .mTimeout => 3
  | .lEncoder => 1
  | .lFrameTimeout => 2
  | .lLate => 3
  | .lQueueFull => 4

def ResetCause.code : ResetCause → Nat
  | .power => 1
  | .pin => 2
  | .command => 3

def CommandOutcome.code : CommandOutcome → Nat
  | .none => 0
  | .done => 1
  | .started => 2
  | .busy => 3
  | .badArgument => 4
  | .wrongState => 5
  | .unknownKind => 6

def Bank.code : Bank → Nat
  | .empty => 0
  | .loading _ => 1
  | .ready _ => 2
  | .active _ => 3

/-- The program ID shown for a bank: 0 for an EMPTY or LOADING one (R5). -/
def Bank.shownId : Bank → Nat
  | .ready p => p.header.programId.toNat
  | .active p => p.header.programId.toNat
  | _ => 0

def LoadOutcome.code : LoadOutcome → Nat
  | .loaded => 1
  | .format => 2
  | .geometry => 3
  | .lanes => 4
  | .recipe => 5
  | .jointOrder => 6
  | .jointRange => 7
  | .gap => 8
  | .windowOverlap => 9
  | .fetchError => 10
  | .aborted => 11

def BankId.code : BankId → Nat
  | .bank0 => 0
  | .bank1 => 1

def FrameState.code : FrameState → Nat
  | .idle => 0
  | .opened => 1
  | .closing => 2

def GateMode.code : GateMode → Nat
  | .off => 0
  | .active => 1
  | .held => 2

def Containment.code : Containment → Nat
  | .opened => 0
  | .contained => 1

def Policy.code : Policy → Nat
  | .mark => 0
  | .contain => 1

def FailResponse.code : FailResponse → Nat
  | .allOnes => 0
  | .error => 1

/-! ### Records (R201) -/

/-- A JOINT record. -/
def JointResult.bytes (r : JointResult) : List Byte :=
  let m := r.measurement.getD ⟨0, 0, 0, 0, 0, 0, 0⟩
  leBytes 1 1 ++ leBytes 1 r.verdict.code ++ leBytes 1 ((r.cause.map Cause.code).getD 0)
    ++ leBytes 1 r.defects.code
    ++ leBytes 1 (bit r.order + 2 * bit r.incomplete + 4 * bit r.advisory)
    ++ leBytes 1 (bit r.measurement.isSome + 2 * bit r.bridgedRows.isSome)
    ++ leBytes 1 (r.bridgedRows.getD 0) ++ leBytes 1 0
    ++ leBytes 2 r.frame.toNat ++ leBytes 2 r.index ++ leBytes 2 r.label.toNat
    ++ leBytes 2 m.qValid ++ leBytes 2 m.qSat ++ leBytes 2 m.qFlat ++ leBytes 2 m.qSlope
    ++ leBytes 2 m.qSteep ++ leBytes 2 m.qDark ++ leBytes 2 m.bm ++ leBytes 4 0

/-- A BOARD record. -/
def BoardResult.bytes (r : BoardResult) : List Byte :=
  leBytes 1 2 ++ leBytes 1 r.verdict.code
    ++ leBytes 1 (bit r.late + 2 * bit r.notImaged + 4 * bit r.unmatched + 8 * bit r.truncated
        + 16 * bit r.timeout)
    ++ leBytes 1 r.action.code
    ++ leBytes 2 r.frame.toNat ++ leBytes 2 r.serial.toNat ++ leBytes 4 r.programId.toNat
    ++ leBytes 2 r.counts.ok ++ leBytes 2 r.counts.excess ++ leBytes 2 r.counts.insufficient
    ++ leBytes 2 r.counts.nonwet ++ leBytes 2 r.counts.bridge ++ leBytes 2 r.counts.unreadable
    ++ leBytes 2 r.lost ++ leBytes 6 0

/-- A NOTICE record. -/
def NoticeResult.bytes (r : NoticeResult) : List Byte :=
  leBytes 1 3 ++ leBytes 1 r.error.code.source.code ++ leBytes 1 r.error.code.code
    ++ leBytes 1 r.error.severity.code
    ++ leBytes 1 (bit r.replacement + 2 * bit r.overflow) ++ leBytes 1 0
    ++ leBytes 2 r.error.serial.toNat ++ leBytes 8 r.error.addr.toNat
    ++ leBytes 1 r.error.master.toNat ++ leBytes 15 0

/-- The 32 bytes of a record. -/
def RingRecord.bytes : RingRecord → List Byte
  | .joint r => r.bytes
  | .board r => r.bytes
  | .notice r => r.bytes

/-! ### Status block (R195, R203) -/

/-- A log entry of the status block; all 0 for an empty log (R203). -/
def ErrorLog.bytes (l : ErrorLog) : List Byte :=
  match l.held with
  | none => leBytes 16 0
  | some e =>
    leBytes 1 e.code.code ++ leBytes 1 e.severity.code ++ leBytes 1 (bit l.overflow)
      ++ leBytes 1 e.master.toNat ++ leBytes 2 e.serial.toNat ++ leBytes 2 0
      ++ leBytes 8 e.addr.toNat

/-- The four bytes of a port in the status block. -/
def Port.statusBytes (p : Port) : List Byte :=
  leBytes 1 p.containment.code ++ leBytes 1 p.policy.code ++ leBytes 1 p.failResponse.code ++ leBytes 1 0

/-- The ring configuration in the status block: all 0 while unset. -/
def ringBytes : Option Ring → List Byte
  | none => leBytes 16 0
  | some r => leBytes 8 r.base.toNat ++ leBytes 4 r.size ++ leBytes 1 (bit r.irqOn) ++ leBytes 3 0

/-- The 256 bytes of the status block as the block stands. -/
def Block.statusBytes (b : Block) : List Byte :=
  leBytes 4 b.blockSequence.toNat ++ leBytes 1 b.decoder.resetCause.code
    ++ leBytes 1 (bit b.decoder.resetPending) ++ leBytes 1 b.decoder.lastOutcome.code ++ leBytes 1 0
    ++ leBytes 4 b.decoder.commandCount.toNat ++ leBytes 4 b.decoder.lastKind.toNat
    ++ leBytes 1 b.store.bank0.code ++ leBytes 1 b.store.bank1.code
    ++ leBytes 1 ((b.store.record.target.map BankId.code).getD 0xFF)
    ++ leBytes 1 ((b.store.record.outcome.map LoadOutcome.code).getD 0)
    ++ leBytes 2 b.store.record.index ++ leBytes 2 0
    ++ leBytes 4 b.store.bank0.shownId ++ leBytes 4 b.store.bank1.shownId
    ++ leBytes 1 b.tracker.state.code ++ leBytes 1 b.line.gateMode.code
    ++ leBytes 1 b.line.queue.length ++ leBytes 1 0
    ++ leBytes 2 b.tracker.number.toNat ++ leBytes 2 b.line.untracked
    ++ leBytes 4 b.line.position.toNat ++ b.capture.statusBytes ++ b.system.statusBytes
    ++ leBytes 2 b.memory.responseLimit ++ leBytes 2 0
    ++ leBytes 4 b.writer.producer.toNat ++ leBytes 4 b.writer.drops ++ ringBytes b.writer.ring
    ++ b.logs.capture.bytes ++ b.logs.system.bytes ++ b.logs.memory.bytes ++ b.logs.line.bytes
    ++ leBytes 112 0

end Sys2Proof.Machine
end

