-- ==== Sys2Proof/Machine/Ports.lean ====
section
/-! DEFINITION. One upstream port: answers in order (R149), the write buffer (R150), containment of the port's own
traffic (R134). -/

namespace Sys2Proof.Machine

/-- A port of the block. -/
def Block.port (b : Block) : PortId → Port
  | .capture => b.capture
  | .system => b.system

/-- The block with a port replaced. -/
def Block.setPort (b : Block) (i : PortId) (p : Port) : Block :=
  match i with
  | .capture => { b with capture := p }
  | .system => { b with system := p }

/-! ### Answers (R149) -/

/-- The requests still open after every decided answer of this master ID and direction that no earlier
undecided request of the same kind holds back has been given, and the answers given, in order (R149). -/
def releaseAnswers (master : MasterId) (dir : Direction) : List OpenRequest → List OpenRequest × List Answer
  | [] => ([], [])
  | r :: rest =>
    if r.master = master ∧ r.direction = dir then
      match r.decided with
      | some a => ((releaseAnswers master dir rest).1, a :: (releaseAnswers master dir rest).2)
      | none => (r :: rest, [])
    else (r :: (releaseAnswers master dir rest).1, (releaseAnswers master dir rest).2)

/-- The answer to a request of this number is decided; it is given as soon as R149 lets it. -/
def Port.answer (p : Port) (stamp : Nat) (response : Response) (data : List Beat) : Port :=
  match p.unanswered.find? (·.stamp == stamp) with
  | none => p
  | some r =>
    let marked := p.unanswered.map fun q =>
      if q.stamp = stamp then { q with decided := some ⟨q.master, q.direction, response, data⟩ } else q
    { p with
      unanswered := (releaseAnswers r.master r.direction marked).1
      given := p.given ++ (releaseAnswers r.master r.direction marked).2 }

/-- Data beats of the fail response (R136). -/
def FailResponse.data (f : FailResponse) (beats : BeatField) : List Beat :=
  match f with
  | .allOnes => List.replicate (beatCount beats) (BitVec.allOnes 128)
  | .error => List.replicate (beatCount beats) 0

/-- Response of the fail response (R136). -/
def FailResponse.response : FailResponse → Response
  | .allOnes => .okay
  | .error => .error

/-- A read is answered with a fail response (R134, R136). -/
def Port.failRead (p : Port) (r : ListedRead) : Port :=
  p.answer r.stamp r.failResponse.response (r.failResponse.data r.beats)

/-- The number of reads that hold a place: taken, not yet answered (R148). -/
def Port.readsHeld (p : Port) : Nat :=
  (p.unanswered.filter fun r => r.direction == .read && r.holdsPlace).length

/-! ### The write buffer (R150) -/

/-- At the system port a write that has all its beats and stands at the head is READY at once (R150). -/
def Port.settleHead (i : PortId) (p : Port) : Port :=
  match i, p.buffer with
  | .system, w :: rest =>
    if w.state = .waiting then { p with buffer := { w with state := .ready } :: rest } else p
  | _, _ => p

/-- A write of this number replaced in the buffer. -/
def Port.setWrite (p : Port) (w : BufferedWrite) : Port :=
  { p with buffer := p.buffer.map fun v => if v.stamp = w.stamp then w else v }

/-- A write is discarded and answered OKAY; the head behind it settles (R131, R134, R135, R152). -/
def Port.discardWrite (i : PortId) (p : Port) (stamp : Nat) : Port :=
  let p := { p with buffer := p.buffer.filter fun v => v.stamp != stamp }
  (p.answer stamp .okay []).settleHead i

/-- The write that the next beat belongs to: the oldest write request taken that still lacks beats (R146). -/
inductive BeatTarget where
  | failed (w : FailedWrite)
  | buffered (w : BufferedWrite)
  deriving DecidableEq, Repr

/-- The oldest write of a port that still lacks beats, among those in the buffer and those whose request parity
failed (R146). -/
def Port.beatTarget (p : Port) : Option BeatTarget :=
  match p.failing.head?, p.buffer.find? (·.state == .taking) with
  | none, none => none
  | some f, none => some (.failed f)
  | none, some w => some (.buffered w)
  | some f, some w => if f.stamp < w.stamp then some (.failed f) else some (.buffered w)

/-! ### Containment of a port's traffic (R134) -/

/-- A buffered write that the port's containment does not discard at once: one whose beats are still being
taken, or one the frame tracker has answered Inspect (R134, step 1). -/
def BufferedWrite.staysOnContainment (w : BufferedWrite) : Bool := (w.state == .taking) || w.inspected

/-- Steps 1 and 2 of R134: buffered writes are discarded and answered OKAY, those still taking beats are marked
to be discarded at their last beat, unsent reads are answered with the fail response; and the state becomes
CONTAINED. -/
def Port.contain (p : Port) : Port :=
  let gone := p.buffer.filter fun w => !w.staysOnContainment
  let kept := (p.buffer.filter BufferedWrite.staysOnContainment).map fun w =>
    if w.state = .taking then { w with doomed := true } else w
  let p := { p with buffer := kept, containment := .contained }
  let p := gone.foldl (fun p w => p.answer w.stamp .okay []) p
  let reads := p.reads
  reads.foldl Port.failRead { p with reads := [] }

end Sys2Proof.Machine
end

