-- ==== Sys2Proof/Machine/Ops.lean ====
section
/-! DEFINITION. The operations that several commands share: hand-over to the internal master (R157), status
rewrites (R194), offers to the record writer (R169, R170), error logs (R125 to R127), gate hold (R144),
containment (R134), frame close (R40), and the passing of time. -/

namespace Sys2Proof.Machine

/-! ### Internal master (R157, R194) -/

/-- The internal master's queue has room. -/
def Block.masterHasRoom (b : Block) : Bool := decide (b.master.queue.length < Config.internalPlaces)

/-- A request joins the internal master's queue. -/
def Block.enqueue (b : Block) (work : InternalWork) : Block :=
  { b with
    master := { b.master with queue := b.master.queue ++ [⟨b.stamp, work⟩] }
    stamp := b.stamp + 1 }

/-- An owner waits for room (R157). -/
def Block.wait (b : Block) (w : Waiter) : Block :=
  { b with master := { b.master with waiters := b.master.waiters ++ [w] } }

/-- An owner may hand over now: there is room, and no owner has waited longer (R157; log entry 29). -/
def Block.mayHandOver (b : Block) : Bool := b.masterHasRoom && b.master.waiters.isEmpty

/-- The work is a status block write. -/
def InternalWork.isStatus : InternalWork → Bool
  | .statusBlock => true
  | _ => false

/-- The work is a producer word write. -/
def InternalWork.isProducerWord : InternalWork → Bool
  | .producerWord _ => true
  | _ => false

/-- The waiter is a producer word write. -/
def Waiter.isProducerWord : Waiter → Bool
  | .producerWord _ => true
  | _ => false

/-- The status writer's pending write flag: a status write handed over has not yet been sent (R194). -/
def Block.statusPending (b : Block) : Bool := b.master.queue.any (·.work.isStatus)

/-- The status writer's rewrite-wanted flag: a rewrite is wanted that it could not yet hand over (R194). -/
def Block.rewriteWanted (b : Block) : Bool := b.master.waiters.contains .statusBlock

/-- A block asks for a status rewrite (R194). A status write that already waits in the queue serves the request, also
when a producer word write stands behind it, though R173 speaks of that word ahead of the rewrite (log entry 42). -/
def Block.askRewrite (b : Block) : Block :=
  if b.statusPending || b.rewriteWanted then b
  else if b.mayHandOver then b.enqueue .statusBlock
  else b.wait .statusBlock

/-- A producer word write of the present producer index: it replaces the value of one that is pending, or is
handed over, or waits for room (R175). -/
def Block.writeProducerWord (b : Block) : Block :=
  let value := b.writer.producer
  if b.master.queue.any (·.work.isProducerWord) then
    { b with master := { b.master with queue := b.master.queue.map fun r =>
        if r.work.isProducerWord then { r with work := .producerWord value } else r } }
  else if b.master.waiters.any Waiter.isProducerWord then
    { b with master := { b.master with waiters := b.master.waiters.map fun w =>
        if w.isProducerWord then .producerWord value else w } }
  else if b.mayHandOver then b.enqueue (.producerWord value)
  else b.wait (.producerWord value)

/-! ### Record writer (R169, R170) -/

/-- The drop counter goes up by 1, saturating (R170). -/
def RecordWriter.drop (w : RecordWriter) : RecordWriter := { w with drops := min Config.dropMax (w.drops + 1) }

/-- A BOARD or NOTICE record is queued, or dropped when the queue holds 32 records (R170). -/
def RecordWriter.offer (w : RecordWriter) (r : RingRecord) : RecordWriter :=
  if w.queue.length < Config.outputPlaces then { w with queue := w.queue ++ [r] } else w.drop

/-- The report mode admits a joint result (R169). -/
def ReportMode.admits (m : ReportMode) (v : Verdict) : Bool :=
  match m with
  | .all => true
  | .defects => v != .ok
  | .none => false

/-- A joint result is offered: discarded without a trace when the report mode does not allow it, queued while
the queue holds fewer than 24 records, and otherwise dropped, counted and told to the tally (R169, R170,
R93). -/
def Block.offerJoint (b : Block) (r : JointResult) : Block :=
  if !b.line.config.report.admits r.verdict then b
  else if b.writer.queue.length < Config.jointLimit then
    { b with writer := { b.writer with queue := b.writer.queue ++ [.joint r] } }
  else { b with writer := b.writer.drop, tally := { b.tally with lost := b.tally.lost + 1 } }

/-- A board result is offered (R170). -/
def Block.offerBoard (b : Block) (r : BoardResult) : Block := { b with writer := b.writer.offer (.board r) }

/-- A notice result is offered (R170). -/
def Block.offerNotice (b : Block) (r : NoticeResult) : Block := { b with writer := b.writer.offer (.notice r) }

/-! ### Error logs (R125, R126) -/

/-- A log of the block. -/
def ErrorLogs.log (l : ErrorLogs) : LogSource → ErrorLog
  | .capture => l.capture
  | .system => l.system
  | .memory => l.memory
  | .line => l.line

/-- The logs with one replaced. -/
def ErrorLogs.setLog (l : ErrorLogs) (s : LogSource) (x : ErrorLog) : ErrorLogs :=
  match s with
  | .capture => { l with capture := x }
  | .system => { l with system := x }
  | .memory => { l with memory := x }
  | .line => { l with line := x }

/-- What a report does to a log (R125). -/
inductive LogChange where
  | take
  | replacement
  | firstOverflow
  | none
  deriving DecidableEq, Repr

/-- The kind of change that a report of this severity makes in a log (R125, R126). -/
def ErrorLog.change (l : ErrorLog) (s : Severity) : LogChange :=
  match l.held with
  | Option.none => .take
  | some e => if e.severity.code < s.code then .replacement else if l.overflow then .none else .firstOverflow

/-- A report taken by its log, with the notice result and the status rewrite that R126 gives the change. -/
def Block.logError (b : Block) (e : LoggedError) : Block :=
  let src := e.code.source
  let log := b.logs.log src
  match log.change e.severity with
  | .take => ({ b with logs := b.logs.setLog src { log with held := some e } }.offerNotice
      ⟨e, false, log.overflow⟩).askRewrite
  | .replacement => ({ b with logs := b.logs.setLog src { log with held := some e } }.offerNotice
      ⟨e, true, log.overflow⟩).askRewrite
  | .firstOverflow => { b with logs := b.logs.setLog src { log with overflow := true } }.askRewrite
  | .none => b

/-! ### Gate hold, frame close and containment -/

/-- A gate hold trigger (R144). -/
def Block.triggerHold (b : Block) : Block :=
  match b.line.gateMode with
  | .held => b
  | _ => { b with line := b.line.enterHeld }.askRewrite

/-- A close is taken while the frame is OPEN; otherwise nothing changes (R40). -/
def Block.closeFrame (b : Block) (kind : CloseKind) : Block :=
  match b.tracker.state with
  | .opened => { b with tracker := { b.tracker with state := .closing, closeKind := some kind } }.askRewrite
  | _ => b

/-- A port enters CONTAINED from OPEN (R134): its traffic, the open frame and the gate hold trigger of the
capture port (R39, R143, R204), and the status. A port already CONTAINED is unchanged. -/
def Block.containPort (b : Block) (i : PortId) : Block :=
  match (b.port i).containment with
  | .contained => b
  | .opened =>
    let b := b.setPort i (b.port i).contain
    let b := match i with
      | .capture =>
        let b := b.closeFrame .truncated
        if b.line.config.holdOnContain then b.triggerHold else b
      | .system => b
    b.askRewrite

/-- What a report sets off beyond its log, whatever the log did with it (R127). -/
def Block.followReport (b : Block) (e : LoggedError) : Block :=
  match e.code with
  | .cAddrParity => b.containPort .capture
  | .sAddrParity => b.containPort .system
  | .cDataParity => if e.severity = .fatal then b.containPort .capture else b
  | .sDataParity => if e.severity = .fatal then b.containPort .system else b
  | .lQueueFull => b.triggerHold
  | .lFrameTimeout => if b.line.config.holdOnTimeout then b.triggerHold else b
  | .lLate => if b.line.config.holdOnLate then b.triggerHold else b
  | _ => b

/-- A report: taken by its log, then followed by its action (R125 to R127). -/
def Block.report (b : Block) (e : LoggedError) : Block := (b.logError e).followReport e

/-! ### Requests at memory -/

/-- The source of a table entry (R159). -/
def EntryOwner.source : EntryOwner → Source
  | .upstream .capture _ => .capture
  | .upstream .system _ => .system
  | _ => .internal

/-- The byte range of a table entry. -/
def TableEntry.range (e : TableEntry) : Range := byteRange e.addr e.beats

/-- The beat count field, direction and address of an internal request, by its work (R157, R194, R203). -/
def Block.workAddr (b : Block) : InternalWork → Addr
  | .fetch a _ => a
  | .slotWrite a _ _ => a
  | .producerWord _ => b.decoder.windowAddr Config.producerOffset
  | .statusBlock => b.decoder.windowAddr Config.statusOffset

/-- The beat count field of an internal request. -/
def InternalWork.beats : InternalWork → BeatField
  | .fetch _ n => n
  | .slotWrite _ _ _ => 1
  | .producerWord _ => 0
  | .statusBlock => 15

/-- The direction of an internal request. -/
def InternalWork.direction : InternalWork → Direction
  | .fetch _ _ => .read
  | _ => .write

/-- The byte range of an internal request. -/
def Block.workRange (b : Block) (w : InternalWork) : Range := byteRange (b.workAddr w) w.beats

/-- A request conflicts with a request in the outstanding table: they overlap and one of them is a write
(R160). -/
def MemoryPort.conflicts (m : MemoryPort) (r : Range) (dir : Direction) : Bool :=
  m.table.any fun e => e.range.overlaps r && (e.direction == .write || dir == .write)

/-- Outstanding requests of a source in one direction (R159). -/
def MemoryPort.outstanding (m : MemoryPort) (s : Source) (dir : Direction) : Nat :=
  (m.table.filter fun e => e.owner.source == s && e.direction == dir).length

/-! ### Time -/

/-- `n` microseconds of the timebase pass: the DEAD interval and the response timers count down (R112, R140;
log entry 1). -/
def Block.elapse (b : Block) (n : Nat) : Block :=
  { b with
    memory := { b.memory with table := b.memory.table.map fun e => { e with timer := e.timer - n } }
    line := match b.line.driver with
      | .dead line left pending => { b.line with driver := .dead line (left - n) pending }
      | _ => b.line }

/-! ### Commands on the block -/

/-- A command whose effect is a change of the block: it always answers a next state, and the queue is as it
was. -/
def State.onBlock (s : State) (f : Block → Block) : Host.Outcome State Fault Refusal :=
  .next { s with block := f s.block }

end Sys2Proof.Machine
end

