-- ==== Sys2Proof/Machine/Bursts.lean ====
section
/-! DEFINITION. From a write burst to its segments: image positions (R26), row pieces (R27), clipping to the lane
(R28). -/

namespace Sys2Proof.Machine

/-- The strobes of a burst's beat as the tracker inspects them: in the first beat the bytes below the address
count as clear (R26). -/
def inspectedStrobes (w : BufferedWrite) (beat : Nat) (strobes : BeatBits) : BeatBits :=
  if beat = 0 then strobes &&& (BitVec.allOnes 16 <<< (w.addr.toNat % 16)) else strobes

/-- The four pixels of a beat that begins at this column (R26, R199). -/
def beatPixels (column : Nat) (data : Beat) (strobes : BeatBits) : List Pixel :=
  (List.range 4).map fun k =>
    ⟨column + k, data.extractLsb' (32 * k) 32, strobes.extractLsb' (4 * k) 4⟩

/-- The pixels of a burst with their rows, in address order, from beat number `beat` on (R26). -/
def positionedPixels (h : Header) (w : BufferedWrite) : Nat → List TakenBeat → List (Nat × Pixel)
  | _, [] => []
  | beat, t :: rest =>
    let offset := w.addr.toNat / 16 * 16 + 16 * beat - h.base.toNat
    (beatPixels (offset % h.pitch / 4) t.data (inspectedStrobes w beat t.strobes)).map
        (fun p => (offset / h.pitch, p))
      ++ positionedPixels h w (beat + 1) rest

/-- Neighbouring pixels of one row gathered into row pieces (R27). -/
def rowPieces : List (Nat × Pixel) → List (Nat × List Pixel)
  | [] => []
  | (row, p) :: rest =>
    match rowPieces rest with
    | (r, ps) :: more => if r = row then (r, p :: ps) :: more else (row, [p]) :: (r, ps) :: more
    | [] => [(row, [p])]

/-- The row pieces of a burst, padding and rows beyond the frame dropped (R27). -/
def burstPieces (h : Header) (w : BufferedWrite) : List (Nat × List Pixel) :=
  rowPieces ((positionedPixels h w 0 w.taken).filter fun rp =>
    decide (rp.1 < h.height) && decide (rp.2.column < h.width))

/-- The segment that a row piece leaves after clipping to a lane, if any (R28). -/
def clipPiece (lane : Lane) (piece : Nat × List Pixel) : Option Segment :=
  match piece.2.filter (fun p => lane.holds p.column) with
  | [] => none
  | p :: ps => some ⟨piece.1, p.column, ((p :: ps).getLast (by simp)).column, p :: ps⟩

/-- A burst has an out-of-lane column that is not wholly disabled (R28). -/
def hasOutOfLane (lane : Lane) (pieces : List (Nat × List Pixel)) : Bool :=
  pieces.any fun piece => piece.2.any fun p => !lane.holds p.column && p.strobes != 0

/-- A lane entry that holds no column, read for a lane index a program does not have. -/
def Lane.nowhere : Lane := ⟨0, 1, 0⟩

/-- The lane entry of an index. -/
def Header.lane (h : Header) (i : Nat) : Lane := h.lanes.getD i Lane.nowhere

/-- The burst in progress that an inspectable write becomes (R23, R27, R28, R34). -/
def makeBurst (h : Header) (lane : Nat) (w : BufferedWrite) : Burst where
  master := w.master
  addr := w.addr
  lane := lane
  damaged := w.taken.any (·.bad)
  outOfLane := hasOutOfLane (h.lane lane) (burstPieces h w)
  segments := (burstPieces h w).filterMap (clipPiece (h.lane lane))

/-- A write meets conditions 1 and 2 of R24 against a program; its lane. -/
def Header.inspectable (h : Header) (w : BufferedWrite) : Option Nat :=
  if h.window.lo ≤ w.addr.toNat ∧ w.addr.toNat ≤ h.window.hi then h.laneOf w.master else none

end Sys2Proof.Machine
end

