-- ==== Sys2Proof/Machine/Classify.lean ====
section
/-! DEFINITION. The pixel classifier (03): the classes of a pixel under a recipe, and what one segment adds to one
accumulator record. -/

namespace Sys2Proof.Machine

/-! ### The pixel word (R45, R199) -/

/-- L, brightness under the low-angle ring. -/
def Pixel.low (p : Pixel) : Nat := (p.word.extractLsb' 0 10).toNat
/-- M, brightness under the mid-angle ring. -/
def Pixel.mid (p : Pixel) : Nat := (p.word.extractLsb' 10 10).toNat
/-- T, brightness under the top coaxial light. -/
def Pixel.top (p : Pixel) : Nat := (p.word.extractLsb' 20 10).toNat
/-- The mark. -/
def Pixel.mark (p : Pixel) : Nat := (p.word.extractLsb' 30 2).toNat
/-- The channel sum S (R45). -/
def Pixel.sum (p : Pixel) : Nat := p.low + p.mid + p.top

/-- A pixel is valid: its mark is 0 or 1 and all four strobes are set (R47). -/
def Pixel.valid (p : Pixel) : Bool := decide (p.mark < 2) && p.strobes == BitVec.allOnes 4

/-- A valid pixel is DARK under a recipe (R50). -/
def Pixel.dark (p : Pixel) (r : Recipe) : Bool := decide (p.sum < r.darkSum)

/-- The classes of a valid pixel (R50, R51). -/
inductive PixelClass where
  | dark
  | flat
  | slope
  | steep
  | mixed
  deriving DecidableEq, Repr

/-- The class of a valid pixel: the darkness test, then the dominance tests in their order (R50, R51). -/
def Pixel.classify (p : Pixel) (r : Recipe) : PixelClass :=
  if p.dark r then .dark
  else if p.mid + r.margin ≤ p.top ∧ p.low + r.margin ≤ p.top then .flat
  else if p.top + r.margin ≤ p.mid ∧ p.low + r.margin ≤ p.mid then .slope
  else if p.top + r.margin ≤ p.low ∧ p.mid + r.margin ≤ p.low then .steep
  else .mixed

/-! ### Counts (R47 to R51, R66) -/

/-- The count of a class goes up by 1. -/
def Counts.addClass (c : Counts) : PixelClass → Counts
  | .dark => { c with dark := c.dark + 1 }
  | .flat => { c with flat := c.flat + 1 }
  | .slope => { c with slope := c.slope + 1 }
  | .steep => { c with steep := c.steep + 1 }
  | .mixed => { c with mixed := c.mixed + 1 }

/-- A region pixel added to a record's counts under its recipe (R47 to R51). -/
def Counts.addPixel (r : Recipe) (c : Counts) (p : Pixel) : Counts :=
  if p.valid then
    { c.addClass (p.classify r) with
      sat := if p.mark = 1 then c.sat + 1 else c.sat
      sumS := c.sumS + p.sum }
  else { c with invalid := c.invalid + 1 }

/-- A gap pixel is solder-like: valid and not DARK (R53). -/
def Pixel.solderLike (p : Pixel) (r : Recipe) : Bool := p.valid && !p.dark r

/-! ### Overlaps (R46) -/

/-- The pixels of a segment that lie in a rectangle (R46). -/
def Segment.overlap (s : Segment) (r : Rect) : List Pixel :=
  if r.y0 ≤ s.row ∧ s.row ≤ r.y1 then
    s.pixels.filter fun p => decide (r.x0 ≤ p.column) && decide (p.column ≤ r.x1)
  else []

/-- The pixels of a segment that lie in an optional gap (R46). -/
def Segment.gapOverlap (s : Segment) (g : Option Rect) : List Pixel :=
  match g with
  | some r => s.overlap r
  | none => []

/-- The rectangle contains the segment's row and shares a column with its range c0..c1 (R30, R67). -/
def Segment.meets (s : Segment) (r : Rect) : Bool :=
  decide (r.y0 ≤ s.row) && decide (s.row ≤ r.y1) && columnsMeet r.x0 r.x1 s.first s.last

/-- A record's region or gap contains the segment's row and shares a column with it (R30, R56). -/
def Segment.touches (s : Segment) (a : Accumulator) : Bool :=
  s.meets a.region || (match a.gap with | some g => s.meets g | none => false)

/-! ### Gap rows (R69 to R71) -/

/-- A record's current gap row is closed: bridged_rows goes up when every column of the gap row was
solder-like, saturating at 255 (R71). -/
def GapPart.close (g : GapPart) (gap : Rect) : GapPart where
  row := none
  count := 0
  bridged := if g.count = gap.x1 - gap.x0 + 1 then min 255 (g.bridged + 1) else g.bridged

/-- A solder-like count handed for gap row `row` (R69). -/
def GapPart.add (g : GapPart) (gap : Rect) (row count : Nat) : GapPart :=
  match g.row with
  | none => { g with row := some row, count := count }
  | some y =>
    if y = row then { g with count := g.count + count }
    else { g.close gap with row := some row, count := count }

/-- A record with its current gap row closed, if it has one (R71). -/
def Accumulator.closeGapRow (a : Accumulator) : Accumulator :=
  match a.gap, a.gapPart with
  | some gap, some g => if g.row.isSome then { a with gapPart := some (g.close gap) } else a
  | _, _ => a

/-- What one segment adds to one record, under the record's recipe: the region pixels, and the solder-like count
of the gap overlap when it is not empty (R46, R53, R66, R69). -/
def Accumulator.accumulate (a : Accumulator) (r : Recipe) (s : Segment) : Accumulator :=
  let a := { a with counts := (s.overlap a.region).foldl (Counts.addPixel r) a.counts }
  match a.gap, a.gapPart, s.gapOverlap a.gap with
  | some gap, some g, p :: ps =>
    { a with gapPart := some (g.add gap s.row ((p :: ps).countP (·.solderLike r))) }
  | _, _, _ => a

/-- The mark of a damaged burst's segment on one record (R56, R68). -/
def Accumulator.markDamaged (a : Accumulator) (s : Segment) : Accumulator :=
  if s.touches a then { a with damaged := true } else a

/-- The ORDER mark of a segment that breaks its lane's order on one record (R67). -/
def Accumulator.markOrder (a : Accumulator) (s : Segment) : Accumulator :=
  if s.touches a then { a with order := true } else a

end Sys2Proof.Machine
end

