-- ==== Sys2Proof/Machine/Judge.lean ====
section
/-! DEFINITION. The judgement unit (05): the measurement, the stages, the joint result and the frame tally. -/

namespace Sys2Proof.Machine

/-! ### The measurement (R82, R83) -/

/-- V, the valid pixels counted. -/
def Counts.valid (c : Counts) : Nat := c.flat + c.slope + c.steep + c.mixed + c.dark
/-- P, the pixels counted. -/
def Counts.counted (c : Counts) : Nat := c.valid + c.invalid
/-- A, the region area. -/
def Rect.area (r : Rect) : Nat := (r.x1 - r.x0 + 1) * (r.y1 - r.y0 + 1)

/-- A count as a fraction of 256 of V, rounding down; 0 when V is 0 (R83). -/
def fractionOf (n v : Nat) : Nat := if v = 0 then 0 else 256 * n / v

/-- The measurement of a record (R83). -/
def Accumulator.measure (a : Accumulator) : Measurement where
  qValid := 256 * a.counts.valid / a.region.area
  qSat := fractionOf a.counts.sat a.counts.valid
  qFlat := fractionOf a.counts.flat a.counts.valid
  qSlope := fractionOf a.counts.slope a.counts.valid
  qSteep := fractionOf a.counts.steep a.counts.valid
  qDark := fractionOf a.counts.dark a.counts.valid
  bm := if a.counts.valid = 0 then 0 else a.counts.sumS / a.counts.valid

/-! ### The stages (R84 to R87) -/

/-- How a record is handed to judgement (R74). -/
inductive HandOver where
  | completed
  | forced
  deriving DecidableEq, Repr

/-- No defect found. -/
def Defects.noneFound : Defects := ⟨false, false, false, false⟩

/-- Stage 1: the forced verdict's cause, if any (R84). -/
def Accumulator.forcedCause (a : Accumulator) (kind : HandOver) : Option Cause :=
  match kind with
  | .forced => some .truncated
  | .completed => if a.damaged then some .damaged else none

/-- Stage 2: the cause for which a record is not readable, if any (R85). -/
def Accumulator.unreadableCause (a : Accumulator) (r : Recipe) : Option Cause :=
  if a.counts.valid = 0 then some .noValid
  else if a.measure.qValid < r.minValid then some .lowValid
  else if r.satMax < a.measure.qSat then some .saturated
  else none

/-- Stage 4: the defect tests of a readable record (R86). -/
def Accumulator.findDefects (a : Accumulator) (r : Recipe) : Defects where
  excess := decide (r.steepMax < a.measure.qSteep)
  insufficient := decide (a.measure.qSlope < r.slopeMin)
  nonwet := decide (r.darkMax < a.measure.qDark) || decide (a.measure.bm < r.brightMin)
  bridge := match a.gapPart with
    | some g => decide (1 ≤ r.bridgeRows) && decide (r.bridgeRows ≤ g.bridged)
    | none => false

/-- Stage 5: the most severe defect, in the order BRIDGE, NONWET, INSUFFICIENT, EXCESS; OK without a defect
(R87). -/
def Defects.verdict (d : Defects) : Verdict :=
  if d.bridge then .bridge
  else if d.nonwet then .nonwet
  else if d.insufficient then .insufficient
  else if d.excess then .excess
  else .ok

/-- Verdict, cause and defects of a record handed over (R84 to R87). -/
def Accumulator.judge (a : Accumulator) (r : Recipe) (kind : HandOver) : Verdict × Option Cause × Defects :=
  match a.forcedCause kind with
  | some c => (.unreadable, some c, .noneFound)
  | none =>
    match a.unreadableCause r with
    | some c => (.unreadable, some c, .noneFound)
    | none => ((a.findDefects r).verdict, none, a.findDefects r)

/-! ### Joint results (R81, R88 to R90) -/

/-- Label and weight of a joint by its table index, as the ACTIVE bank holds them (R80); label 0 and CRITICAL
for an index the bank does not have. -/
def Program.labelWeight (p : Program) (i : Nat) : BitVec 16 × Weight :=
  match p.joints[i]? with
  | some j => (j.label, j.weight)
  | none => (0, .critical)

/-- The joint result of a record handed over (R81, R88). -/
def Accumulator.result (a : Accumulator) (p : Program) (frame : FrameNumber) (kind : HandOver) : JointResult :=
  let v := a.judge (p.recipe a.recipe) kind
  { frame := frame
    index := a.index
    label := (p.labelWeight a.index).1
    verdict := v.1
    cause := v.2.1
    defects := v.2.2
    measurement := some a.measure
    bridgedRows := a.gapPart.map (·.bridged)
    order := a.order
    incomplete := decide (a.counts.counted < a.region.area)
    advisory := (p.labelWeight a.index).2 == .advisory }

/-- The joint result of a joint without a record: refused at admission, or not reached (R89, R90). -/
def Program.absentResult (p : Program) (frame : FrameNumber) (index : Nat) (cause : Cause) : JointResult where
  frame := frame
  index := index
  label := (p.labelWeight index).1
  verdict := .unreadable
  cause := some cause
  defects := .noneFound
  measurement := none
  bridgedRows := none
  order := false
  incomplete := false
  advisory := (p.labelWeight index).2 == .advisory

/-! ### The frame tally (R92) -/

/-- The count of a verdict goes up by 1. -/
def VerdictCounts.add (c : VerdictCounts) : Verdict → VerdictCounts
  | .ok => { c with ok := c.ok + 1 }
  | .excess => { c with excess := c.excess + 1 }
  | .insufficient => { c with insufficient := c.insufficient + 1 }
  | .nonwet => { c with nonwet := c.nonwet + 1 }
  | .bridge => { c with bridge := c.bridge + 1 }
  | .unreadable => { c with unreadable := c.unreadable + 1 }

/-- A verdict added to the tally; a verdict other than OK of a CRITICAL joint sets the critical failure
indicator (R92). -/
def Tally.add (t : Tally) (r : JointResult) : Tally :=
  { t with counts := t.counts.add r.verdict, critical := t.critical || (!r.advisory && r.verdict != .ok) }

/-- A verdict is given: added to the tally, then offered to the record writer (R80, R92, R93). -/
def Block.giveResult (b : Block) (r : JointResult) : Block := { b with tally := b.tally.add r }.offerJoint r

/-- A record handed over is judged (R80). -/
def Block.judgeRecord (p : Program) (kind : HandOver) (b : Block) (a : Accumulator) : Block :=
  b.giveResult (a.result p b.tracker.number kind)

/-- A joint without a record is judged (R89, R90). -/
def Block.judgeAbsent (p : Program) (cause : Cause) (b : Block) (index : Nat) : Block :=
  b.giveResult (p.absentResult b.tracker.number index cause)

end Sys2Proof.Machine
end

