-- ==== Sys2Proof/Machine/Joints.lean ====
section
/-! DEFINITION. The open joint set (04): admission, watermark notices, completion, and the hand-over at CLOSING. -/

namespace Sys2Proof.Machine

/-! ### Admission (R60 to R64) -/

/-- The lanes a joint waits on: those that share a column with its region, or with its gap (R61). -/
def Header.waitSet (h : Header) (j : Joint) : List Nat :=
  (List.range h.lanes.length).filter fun i =>
    columnsMeet (h.lane i).first (h.lane i).last j.region.x0 j.region.x1
      || (match j.gap with
        | some g => columnsMeet (h.lane i).first (h.lane i).last g.x0 g.x1
        | none => false)

/-- The completion row of a joint (R61). -/
def Joint.completionRow (j : Joint) : Nat :=
  match j.gap with
  | some g => max j.region.y1 g.y1
  | none => j.region.y1

/-- The record made at the admission of a joint (R60, R61). -/
def Header.newRecord (h : Header) (index : Nat) (j : Joint) : Accumulator where
  index := index
  region := j.region
  gap := j.gap
  recipe := j.recipe
  counts := ⟨0, 0, 0, 0, 0, 0, 0, 0⟩
  gapPart := j.gap.map fun _ => ⟨none, 0, 0⟩
  damaged := false
  order := false
  waitSet := h.waitSet j
  completionRow := j.completionRow

/-- A joint at the admission pointer is admitted, or refused when the set holds 512 records; either way the
pointer moves past it (R63, R64). -/
def Block.admitOne (p : Program) (b : Block) (j : Joint) : Block :=
  let index := b.joints.pointer
  if b.joints.records.length < Config.openJoints then
    { b with joints := ⟨b.joints.records ++ [p.header.newRecord index j], index + 1⟩ }
  else
    { b with joints := { b.joints with pointer := index + 1 } }.judgeAbsent p .openSetFull index

/-- Joints admitted in table order up to the first whose y0 is greater than the row (R63). -/
def Block.admitJoints (p : Program) (row : Nat) : List Joint → Block → Block
  | [], b => b
  | j :: rest, b => if j.region.y0 ≤ row then Block.admitJoints p row rest (b.admitOne p j) else b

/-- Step 3 of R33: admission for a segment of a row. -/
def Block.admitRow (p : Program) (row : Nat) (b : Block) : Block :=
  Block.admitJoints p row (p.joints.drop b.joints.pointer) b

/-! ### Watermark notices (R70, R72, R73) -/

/-- A record's gap lies in a lane (R70). -/
def Accumulator.gapInLane (a : Accumulator) (l : Lane) : Bool :=
  match a.gap with
  | some g => l.holds g.x0
  | none => false

/-- A record's current gap row is closed when its gap lies in the lane and the lane has closed that row (R70). -/
def Accumulator.noticeGap (l : Lane) (watermark : Int) (a : Accumulator) : Accumulator :=
  match a.gapPart with
  | some g =>
    match g.row with
    | some y => if a.gapInLane l ∧ (y : Int) ≤ watermark then a.closeGapRow else a
    | none => a
  | none => a

/-- A lane's watermark; -1 for a lane without a progress record. -/
def watermarkOf (progress : List LaneProgress) (lane : Nat) : Int :=
  match progress[lane]? with
  | some q => q.watermark
  | none => -1

/-- Every lane of a record's wait set has reached its completion row (R73). -/
def Accumulator.complete (progress : List LaneProgress) (a : Accumulator) : Bool :=
  a.waitSet.all fun k => decide ((a.completionRow : Int) ≤ watermarkOf progress k)

/-- The notice that lane `k` has a new watermark: gap rows are closed, then the records that wait on the lane
are tested, and those complete are judged in the set's order and removed (R72, R73). -/
def Block.notice (p : Program) (k : Nat) (b : Block) : Block :=
  let progress := b.tracker.progress
  let records := b.joints.records.map (Accumulator.noticeGap (p.header.lane k) (watermarkOf progress k))
  let leaves := fun a : Accumulator => a.waitSet.contains k && a.complete progress
  let done := records.filter leaves
  let b := { b with joints := { b.joints with records := records.filter fun a => !leaves a } }
  done.foldl (fun b a => b.judgeRecord p .completed a.closeGapRow) b

/-! ### CLOSING (R76, R77) -/

/-- Step 1 of R41: every record still open is handed over and removed; a record whose completion has been
reached is judged normally (log entry 36). -/
def Block.handOverAll (p : Program) (b : Block) : Block :=
  let progress := b.tracker.progress
  let records := b.joints.records
  let b := { b with joints := { b.joints with records := [] } }
  records.foldl (fun b a =>
    b.judgeRecord p (if a.complete progress then .completed else .forced) a.closeGapRow) b

/-- Step 2 of R41: every joint not admitted gets NOT_REACHED, in table order; the pointer then stands at the
joint count (R77). -/
def Block.handOverUnreached (p : Program) (b : Block) : Block :=
  let pointer := b.joints.pointer
  let b := { b with joints := { b.joints with pointer := max pointer p.joints.length } }
  (List.range' pointer (p.joints.length - pointer)).foldl (Block.judgeAbsent p .notReached) b

end Sys2Proof.Machine
end

