-- ==== Sys2Proof/Machine/Boards.lean ====
section
/-! DEFINITION. The board queue (06): binding at frame open (R36), board entry (R102, R103), the board verdict at
frame close (R105 to R108), and due boards (R109, R110). -/

namespace Sys2Proof.Machine

/-- The oldest AWAITING_IMAGE board of a queue becomes IMAGING, bound to the frame; its serial (R36). -/
def bindBoard (frame : FrameNumber) : List Board → List Board × Option Serial
  | [] => ([], none)
  | x :: rest =>
    if x.state = .awaitingImage then ({ x with state := .imaging frame } :: rest, some x.serial)
    else (x :: (bindBoard frame rest).1, (bindBoard frame rest).2)

/-- The program ID of the ACTIVE bank, or 0 (R106). -/
def Block.activeId (b : Block) : BitVec 32 :=
  match b.store.activeProgram with
  | some p => p.header.programId
  | none => 0

/-! ### The board verdict at frame close -/

/-- The board verdict of the closing frame (R105). -/
def Block.boardVerdict (b : Block) : BoardVerdict :=
  if b.tally.critical || b.tracker.closeKind == some .timeout || b.tracker.closeKind == some .truncated then
    .reject
  else .pass

/-- The gate action expected for a judged board, as the gate mode stands (R105). -/
def GateMode.expected : GateMode → GateAction
  | .active => .driven
  | .off => .off
  | .held => .forced

/-- The board result of a closing frame (R106). -/
def Block.closeResult (b : Block) (serial : Serial) (late unmatched : Bool) (action : GateAction) :
    BoardResult where
  frame := b.tracker.number
  serial := serial
  programId := b.activeId
  verdict := b.boardVerdict
  counts := b.tally.counts
  lost := b.tally.lost
  late := late
  notImaged := false
  unmatched := unmatched
  truncated := b.tracker.closeKind == some .truncated
  timeout := b.tracker.closeKind == some .timeout
  action := action

/-- A board is the entry of this serial that is IMAGING. -/
def Board.isImaging (serial : Serial) (x : Board) : Bool :=
  match x.state with
  | .imaging _ => x.serial == serial
  | _ => false

/-- An IMAGING board of this serial becomes JUDGED with a verdict (R105). -/
def Board.judge (serial : Serial) (v : BoardVerdict) (x : Board) : Board :=
  match x.state with
  | .imaging f => if x.serial = serial then { x with state := .judged f v } else x
  | _ => x

/-- Step 3 of R41: the board verdict is given and the frame's board result offered. The binding decides the
form: an entry still in the queue (R105), no board (R107), or a board that has left (R108). The expected gate action
goes by the gate mode as it stands here. DESIGN CHOICE (log entry 45): a RELEASE_GATE taken between the capture port's
containment and this step has made it ACTIVE (R145), so the record says DRIVEN (R105), though R204 says HELD and FORCED.
Unsafe. -/
def Block.finishBoard (b : Block) : Block :=
  match b.tracker.binding with
  | none => b.offerBoard (b.closeResult 0 false true .none)
  | some serial =>
    if b.line.queue.any (Board.isImaging serial) then
      let result := b.closeResult serial false false b.line.gateMode.expected
      { b with line := { b.line with queue := b.line.queue.map (Board.judge serial b.boardVerdict) } }.offerBoard
        result
    else
      let action := match b.line.lateNote with
        | some n => n.action
        | none => .none
      let result := b.closeResult serial true false action
      { b with line := { b.line with lateNote := none } }.offerBoard result

/-! ### Board entry (R102, R103) -/

/-- A leading edge has been recognized (R102, R103): ignored while the configuration is invalid; a board is
entered while the queue has room; otherwise it is counted as untracked and L_QUEUE_FULL is reported. -/
def Block.leadingEdge (b : Block) : Block :=
  let l := b.line
  if !l.config.valid then b
  else if l.queue.length < Config.boardPlaces then
    let entry : Board :=
      ⟨l.serial, l.position, l.position + BitVec.ofNat 32 l.config.diverter, .awaitingImage⟩
    { b with line := { l with queue := l.queue ++ [entry], serial := l.serial + 1 } }.askRewrite
  else
    ({ b with line := { l with untracked := min Config.untrackedMax (l.untracked + 1) } }.report
      ⟨.lQueueFull, .fatal, 0, 0, l.serial⟩).askRewrite

/-! ### Due boards (R109, R110) -/

/-- The board result of a board that was never imaged (R106, R110). -/
def Block.notImagedResult (b : Block) (board : Board) (action : GateAction) : BoardResult where
  frame := 0
  serial := board.serial
  programId := b.activeId
  verdict := .reject
  counts := ⟨0, 0, 0, 0, 0, 0⟩
  lost := 0
  late := false
  notImaged := true
  unmatched := false
  truncated := false
  timeout := false
  action := action

/-- The action kind of a board verdict (R110). -/
def BoardVerdict.line : BoardVerdict → GateLine
  | .pass => .pass
  | .reject => .reject

/-- The action of a due head entry, by its state, with the records and reports that R110 gives. -/
def Block.dueAction (b : Block) (board : Board) : Block :=
  match board.state with
  | .judged _ v => { b with line := (b.line.gateAction v.line board).1 }
  | .imaging _ =>
    let taken := b.line.gateAction .reject board
    { b with line := { taken.1 with lateNote := some ⟨board.serial, taken.2⟩ } }.report
      ⟨.lLate, .minor, 0, 0, board.serial⟩
  | .awaitingImage =>
    let taken := b.line.gateAction .reject board
    { b with line := taken.1 }.offerBoard (b.notImagedResult board taken.2)

/-- The due test of the head of the queue, again for each new head, for at most `fuel` boards (R109). -/
def Block.dueBoards : Nat → Block → Block
  | 0, b => b
  | fuel + 1, b =>
    match b.line.queue with
    | [] => b
    | board :: rest =>
      if reached b.line.position board.due then
        let b := b.dueAction board
        Block.dueBoards fuel { b with line := { b.line with queue := rest } }.askRewrite
      else b

/-- The frame timeout comparison (R38). -/
def Block.timeoutTest (b : Block) : Block :=
  let c := b.line.config
  if b.tracker.state = .opened ∧ c.valid ∧ c.timeout ≠ 0
      ∧ (c.timeout : Int) ≤ (b.line.position - b.tracker.opening).toInt then
    (b.report ⟨.lFrameTimeout, .degraded, 0, 0, b.tracker.binding.getD 0⟩).closeFrame .timeout
  else b

/-- The work of a change of the position: the window end, then the due tests, then the frame timeout (R99). -/
def Block.positionChanged (b : Block) : Block :=
  let b := { b with line := b.line.windowEnd }
  (Block.dueBoards b.line.queue.length b).timeoutTest

end Sys2Proof.Machine
end

