-- ==== Sys2Proof/Machine/Resets.lean ====
section
/-! DEFINITION. Full reset and inspection reset (R20, R21, R43, R44, R78, R79, R95, R96, R121, R122, R165, R166,
R180, R193, R196, R197). -/

namespace Sys2Proof.Machine

/-- The end of a load seen from the internal master: a loader that waits for room hands over no read (R11). -/
def InternalMaster.dropFetchWait (m : InternalMaster) : InternalMaster :=
  { m with waiters := m.waiters.filter (· != .fetch) }

/-- A load in progress ends without success (R9, R12, R13, R21), with the status rewrite that R5 and R7 ask
for. Without a load nothing changes. -/
def Block.endLoad (b : Block) (outcome : LoadOutcome) (index : Nat) : Block :=
  match b.store.loadingBank with
  | none => b
  | some _ =>
    { b with store := b.store.endLoad outcome index, master := b.master.dropFetchWait }.askRewrite

/-- The frame tracker's part of an inspection reset: IDLE, the frame number kept (R44). -/
def FrameTracker.inspectionReset (t : FrameTracker) : FrameTracker :=
  { FrameTracker.fresh with number := t.number }

/-- The inspection reset is taken, by every block it reaches at one moment (R193). -/
def Block.takeInspectionReset (b : Block) : Block :=
  let b := b.endLoad .aborted 0
  { b with
    tracker := b.tracker.inspectionReset
    joints := ⟨[], 0⟩
    tally := .fresh
    line := b.line.inspectionReset
    decoder := { b.decoder with resetPending := false, resetCause := .command } }.askRewrite

/-- The reset cause of a full reset (R196). -/
def causeOf : FullResetKind → ResetCause
  | .power => .power
  | .pin => .pin

/-- The capture port's data parity policy that the strap IMG_CONTAIN gives (R133). -/
def strapPolicy (imgContain : Bool) : Policy := if imgContain then .contain else .mark

/-- The block after a full reset: every block at its full reset values; of the state before, the gate driver as
R121 gives it, and the wire histories (log entry 13). -/
def Block.fullReset (b : Block) (kind : FullResetKind) (mbxSel : BitVec 3) (imgContain : Bool) : Block :=
  let f := Block.fresh (causeOf kind) mbxSel (strapPolicy imgContain)
  { f with
    capture := { f.capture with given := b.capture.given }
    system := { f.system with given := b.system.given }
    memory := { f.memory with sent := b.memory.sent }
    line := { f.line with driver := b.line.resetDriver } }

/-- FULL_RESET (R196). -/
def execFullReset (kind : FullResetKind) (mbxSel : BitVec 3) (imgContain : Bool) (s : State) :
    Host.Outcome State Fault Refusal :=
  s.onBlock fun b => b.fullReset kind mbxSel imgContain

end Sys2Proof.Machine
end

