-- ==== Sys2Proof/Machine/Inspect.lean ====
section
/-! DEFINITION. The commands of the frame tracker: BURST_OFFER (R23, R35), SEGMENT (R33) and CLOSING (R41). -/

namespace Sys2Proof.Machine

/-! ### BURST_OFFER -/

/-- The answer of the frame tracker to an offer (R23, R25). `openFrame` is Inspect by a burst that opens a
frame. -/
inductive OfferAnswer where
  | pass
  | hold
  | inspect (program : Program) (lane : Nat)
  | openFrame (program : Program) (lane : Nat)
  deriving DecidableEq, Repr

/-- Conditions 1 and 2 of R24 against a program, if there is one. -/
def inspectableBy (p : Option Program) (w : BufferedWrite) : Option (Program × Nat) :=
  p.bind fun q => (q.header.inspectable w).map fun lane => (q, lane)

/-- The answer to an offer, by the frame state (R25). -/
def Block.offerAnswer (b : Block) (w : BufferedWrite) : OfferAnswer :=
  match b.tracker.state with
  | .idle =>
    match inspectableBy b.store.candidate w with
    | some (p, lane) => .openFrame p lane
    | none => .pass
  | .opened =>
    match inspectableBy b.store.activeProgram w with
    | some (p, lane) => .inspect p lane
    | none => .pass
  | .closing =>
    if (inspectableBy b.store.activeProgram w).isSome || (inspectableBy b.store.candidate w).isSome then .hold
    else .pass

/-- The progress record of a lane at frame open (R29). -/
def Lane.freshProgress (l : Lane) : LaneProgress := ⟨0, l.first, -1⟩

/-- The exchange of banks at frame open; a change of a bank's state asks for a rewrite (R5, R18). -/
def Block.exchangeBanks (b : Block) : Block :=
  match b.store.readyBank with
  | some _ => { b with store := b.store.exchange }.askRewrite
  | none => b

/-- A frame opens on a program (R35, R36, R92). -/
def Block.openFrame (b : Block) (p : Program) : Block :=
  let b := b.exchangeBanks
  let number := b.tracker.number + 1
  let bound := bindBoard number b.line.queue
  { b with
    tracker := { b.tracker with
      state := .opened, number := number, closeKind := none, opening := b.line.position,
      binding := bound.2, progress := p.header.lanes.map Lane.freshProgress }
    joints := { b.joints with pointer := 0 }
    tally := .fresh
    line := { b.line with queue := bound.1 } }.askRewrite

/-- The head write of the capture port is given a new state; `inspected` when the tracker answered Inspect. -/
def Block.setCaptureHead (b : Block) (w : BufferedWrite) (rest : List BufferedWrite) (state : WriteState)
    (inspected : Bool) : Block :=
  { b with capture := { b.capture with buffer := { w with state := state, inspected := inspected } :: rest } }

/-- The tracker takes a copy of an inspectable write as its burst in progress (R23). -/
def Block.takeBurst (b : Block) (p : Program) (lane : Nat) (w : BufferedWrite) : Block :=
  { b with tracker := { b.tracker with burst := some (makeBurst p.header lane w) } }

/-- The head write of the capture port can be offered: the port is OPEN, all the write's beats have been taken and
it has not yet been answered Pass or Inspect; a HELD write is offered again once the frame is IDLE (R23, R42,
R150). -/
def Block.canOffer (b : Block) (w : BufferedWrite) : Bool :=
  b.capture.containment == .opened
    && (w.state == .waiting || (w.state == .held && b.tracker.state == .idle))

/-- The offer of the head write of the capture port; without a write to offer, or with a burst in progress,
nothing happens (R23; log entry 2). -/
def Block.burstOffer (b : Block) : Block :=
  match b.tracker.burst, b.capture.buffer with
  | none, w :: rest =>
    if b.canOffer w then
      match b.offerAnswer w with
      | .pass => b.setCaptureHead w rest .ready false
      | .hold => b.setCaptureHead w rest .held false
      | .inspect p lane => (b.setCaptureHead w rest .ready true).takeBurst p lane w
      | .openFrame p lane => ((b.setCaptureHead w rest .ready true).openFrame p).takeBurst p lane w
    else b
  | _, _ => b

/-- BURST_OFFER (R23). -/
def execBurstOffer (s : State) : Host.Outcome State Fault Refusal := s.onBlock Block.burstOffer

/-! ### SEGMENT -/

/-- A segment breaks the lane order (R30). -/
def LaneProgress.breaks (q : LaneProgress) (seg : Segment) : Bool :=
  decide (seg.row < q.row) || (decide (seg.row = q.row) && decide (seg.first < q.column))

/-- The progress record after a segment that advances the row (R31). -/
def LaneProgress.advance (lane : Lane) (row : Nat) : LaneProgress := ⟨row, lane.first, (row : Int) - 1⟩

/-- The progress record after an accepted segment (R32). -/
def LaneProgress.accept (q : LaneProgress) (lane : Lane) (seg : Segment) : LaneProgress :=
  if seg.last = lane.last then ⟨seg.row + 1, lane.first, seg.row⟩ else { q with column := seg.last + 1 }

/-- The progress record of a lane replaced. -/
def Block.setProgress (b : Block) (lane : Nat) (q : LaneProgress) : Block :=
  { b with tracker := { b.tracker with progress := b.tracker.progress.set lane q } }

/-- Every record of the open joint set changed. -/
def Block.mapRecords (b : Block) (f : Accumulator → Accumulator) : Block :=
  { b with joints := { b.joints with records := b.joints.records.map f } }

/-- Every lane's watermark is height - 1 (R37). -/
def Block.allLanesDone (p : Program) (b : Block) : Bool :=
  b.tracker.progress.all fun q => decide (q.watermark = (p.header.height : Int) - 1)

/-- Step 7 of R33: the test for a NORMAL close (R37). -/
def Block.normalTest (p : Program) (b : Block) : Block :=
  if b.allLanesDone p then b.closeFrame .normal else b

/-- A segment that breaks its lane's order (R30): ORDER is set on the records it touches and C_ORDER is
reported. -/
def Block.orderBreak (b : Block) (burst : Burst) (seg : Segment) : Block :=
  (b.mapRecords (·.markOrder seg)).report ⟨.cOrder, .minor, burst.master, burst.addr, 0⟩

/-- Steps 2 to 4 of R33: the row advance if there is one, admission, and the notice of the watermark that a row
advance moved. -/
def Block.enterRow (p : Program) (lane : Nat) (q : LaneProgress) (seg : Segment) (b : Block) : Block :=
  if q.row < seg.row then
    ((b.setProgress lane (.advance (p.header.lane lane) seg.row)).admitRow p seg.row).notice p lane
  else b.admitRow p seg.row

/-- Step 5 of R33: classification for every open record, or the DAMAGED mark for a burst with a parity error
(R34, R46, R56). -/
def Block.classifySegment (p : Program) (burst : Burst) (seg : Segment) (b : Block) : Block :=
  if burst.damaged then b.mapRecords (·.markDamaged seg)
  else b.mapRecords fun a => a.accumulate (p.recipe a.recipe) seg

/-- Steps 6 and 7 of R33: the next column moves; if the lane's row is closed, the notice of its watermark and
the test for a NORMAL close. -/
def Block.leaveSegment (p : Program) (lane : Nat) (q : LaneProgress) (seg : Segment) (b : Block) : Block :=
  let b := b.setProgress lane (q.accept (p.header.lane lane) seg)
  if seg.last = (p.header.lane lane).last then (b.notice p lane).normalTest p else b

/-- The steps of R33 for one segment of the burst in progress. -/
def Block.handleSegment (p : Program) (burst : Burst) (seg : Segment) (b : Block) : Block :=
  match b.tracker.progress[burst.lane]? with
  | none => b
  | some q =>
    if q.breaks seg then b.orderBreak burst seg
    else
      let entered := if q.row < seg.row then LaneProgress.advance (p.header.lane burst.lane) seg.row else q
      ((b.enterRow p burst.lane q seg).classifySegment p burst seg).leaveSegment p burst.lane entered seg

/-- The report of C_LANE_RANGE, once for the burst, before its first segment (R28; log entry 17). -/
def Block.reportLaneRange (burst : Burst) (b : Block) : Block :=
  if burst.outOfLane then b.report ⟨.cLaneRange, .minor, burst.master, burst.addr, 0⟩ else b

/-- The burst in progress with the segments that are left; none when no segment is left (R33). -/
def Block.setSegments (burst : Burst) (rest : List Segment) (b : Block) : Block :=
  { b with tracker := { b.tracker with burst :=
      if rest.isEmpty then none else some { burst with outOfLane := false, segments := rest } } }

/-- An inspection reset that waits for the end of the segment is taken, unless the frame has reached CLOSING
(R44, R192). -/
def Block.resetAfterSegment (b : Block) : Block :=
  if b.decoder.resetPending && b.tracker.state == .opened then b.takeInspectionReset else b

/-- The frame tracker handles the next segment of the burst in progress (R33); a burst with no segment is
ended; without a burst in progress nothing happens (log entry 2). -/
def Block.segment (b : Block) : Block :=
  match b.tracker.burst, b.store.activeProgram with
  | some burst, some p =>
    let b := b.reportLaneRange burst
    match burst.segments with
    | [] => (b.setSegments burst []).resetAfterSegment
    | seg :: rest => ((b.handleSegment p burst seg).setSegments burst rest).resetAfterSegment
  | _, _ => b

/-- SEGMENT (R33). -/
def execSegment (s : State) : Host.Outcome State Fault Refusal := s.onBlock Block.segment

/-! ### CLOSING -/

/-- Step 4 of R41: the frame returns to IDLE. -/
def Block.returnToIdle (b : Block) : Block :=
  { b with tracker := { b.tracker with state := .idle, closeKind := none } }.askRewrite

/-- An inspection reset that waits for the end of CLOSING is taken (R44). -/
def Block.resetAfterClosing (b : Block) : Block := if b.decoder.resetPending then b.takeInspectionReset else b

/-- The verdicts of CLOSING: the records still open, then the joints not reached (R41, steps 1 and 2). -/
def Block.closeVerdicts (b : Block) : Block :=
  match b.store.activeProgram with
  | some p => (b.handOverAll p).handOverUnreached p
  | none => b

/-- The work of CLOSING, once no burst is in progress (R41); otherwise nothing happens (log entry 2). -/
def Block.closingWork (b : Block) : Block :=
  match b.tracker.state, b.tracker.burst with
  | .closing, none => b.closeVerdicts.finishBoard.returnToIdle.resetAfterClosing
  | _, _ => b

/-- CLOSING (R41). -/
def execClosing (s : State) : Host.Outcome State Fault Refusal := s.onBlock Block.closingWork

end Sys2Proof.Machine
end

