-- ==== Sys2Proof/Machine/LineEvents.lean ====
section
/-! DEFINITION. The events of the line: ENCODER_STEP (R99), ILLEGAL_STEP (R100), the board edge (R101 to R103) and
DEAD_TIME_END (R116). -/

namespace Sys2Proof.Machine

/-! ### Encoder -/

/-- The change of a legal step under NORMAL, +1 or -1; none when the two samples do not differ in exactly one
input (R99). A pair is ENC_A, ENC_B. -/
def stepUnderNormal : Bool × Bool → Bool × Bool → Option Int
  | (false, false), (true, false) => some 1
  | (true, false), (true, true) => some 1
  | (true, true), (false, true) => some 1
  | (false, true), (false, false) => some 1
  | (true, false), (false, false) => some (-1)
  | (true, true), (true, false) => some (-1)
  | (false, true), (true, true) => some (-1)
  | (false, false), (false, true) => some (-1)
  | _, _ => none

/-- The change of a legal step under a direction sense (R99). -/
def Sense.apply (s : Sense) (d : Int) : Int :=
  match s with
  | .normal => d
  | .reversed => -d

/-- The last encoder sample replaced. -/
def Block.setSample (b : Block) (sample : Bool × Bool) : Block :=
  { b with line := { b.line with lastSample := some sample } }

/-- A legal step: the position changes by 1, the sample becomes the last sample, and the tests of a position
change are made (R99). -/
def Block.legalStep (b : Block) (sample : Bool × Bool) (d : Int) : Block :=
  let b := b.setSample sample
  { b with line := { b.line with position := b.line.position + BitVec.ofInt 32 d } }.positionChanged

/-- An illegal step: the position is unchanged and L_ENCODER is reported (R100). -/
def Block.illegalSample (b : Block) (sample : Bool × Bool) : Block :=
  (b.setSample sample).report ⟨.lEncoder, .degraded, 0, 0, 0⟩

/-- A sample of the encoder inputs (R99, R100). The first sample after a full reset becomes the last sample
(R97). -/
def Block.encoderSample (b : Block) (sample : Bool × Bool) : Block :=
  match b.line.lastSample with
  | none => b.setSample sample
  | some last =>
    if last = sample then b
    else match stepUnderNormal last sample with
      | some d => b.legalStep sample (b.line.config.sense.apply d)
      | none => b.illegalSample sample

/-- ENCODER_STEP (R99). -/
def execEncoderStep (a b : Bool) (s : State) : Host.Outcome State Fault Refusal :=
  s.onBlock fun x => x.encoderSample (a, b)

/-- A sample in which both inputs have changed against the last sample; before the first sample after a full
reset there is none to differ from, and nothing happens (R100; log entry 23). -/
def Block.illegalStep (b : Block) : Block :=
  match b.line.lastSample with
  | some (x, y) => b.illegalSample (!x, !y)
  | none => b

/-- ILLEGAL_STEP (R100). -/
def execIllegalStep (s : State) : Host.Outcome State Fault Refusal := s.onBlock Block.illegalStep

/-! ### Board edge -/

/-- The level that a leading edge leads to (R101). -/
def Polarity.leadingLevel : Polarity → Bool
  | .rising => true
  | .falling => false

/-- The settled level of BOARD_EDGE becomes this level and the run count 0 (R101). -/
def Block.settleEdge (b : Block) (high : Bool) : Block :=
  { b with line := { b.line with settled := high, runCount := 0 } }

/-- The settled level changes to `high`: a leading edge is handed to board entry, a trailing edge changes the
level and nothing else (R101). -/
def Block.edgeTo (b : Block) (high : Bool) : Block :=
  if high = b.line.config.polarity.leadingLevel then (b.settleEdge high).leadingEdge else b.settleEdge high

/-- A sample of BOARD_EDGE (R101): equal to the settled level, it sets the run count to 0; the fourth differing
sample in a row changes the settled level; an earlier one adds 1 to the run count. -/
def Block.edgeSample (b : Block) (high : Bool) : Block :=
  if high = b.line.settled then { b with line := { b.line with runCount := 0 } }
  else if b.line.runCount + 1 < 4 then { b with line := { b.line with runCount := b.line.runCount + 1 } }
  else b.edgeTo high

/-- BOARD_EDGE_SAMPLE (R101). -/
def execBoardEdgeSample (high : Bool) (s : State) : Host.Outcome State Fault Refusal :=
  s.onBlock fun b => b.edgeSample high

/-- The filtered level changes in the leading direction; it cannot while the settled level is already the
leading one (R101, R102; log entries 2 and 24). -/
def Block.boardEdgeLeading (b : Block) : Block :=
  if b.line.settled = b.line.config.polarity.leadingLevel then b
  else b.edgeTo b.line.config.polarity.leadingLevel

/-- BOARD_EDGE_LEADING (R102). -/
def execBoardEdgeLeading (s : State) : Host.Outcome State Fault Refusal := s.onBlock Block.boardEdgeLeading

/-- The filtered level changes against the edge polarity; it cannot while the settled level is already the
trailing one (R101; log entries 2 and 24). -/
def Block.boardEdgeTrailing (b : Block) : Block :=
  if b.line.settled = b.line.config.polarity.leadingLevel then b.edgeTo (!b.line.config.polarity.leadingLevel)
  else b

/-- BOARD_EDGE_TRAILING (R101). -/
def execBoardEdgeTrailing (s : State) : Host.Outcome State Fault Refusal := s.onBlock Block.boardEdgeTrailing

/-! ### The dead time -/

/-- The DEAD interval runs out: what is left of it passes, and the driver acts on its pending action (R116; log
entry 3). While the driver is not DEAD nothing happens. -/
def Block.deadTimeEnd (b : Block) : Block :=
  match b.line.driver with
  | .dead _ left pending =>
    let b := b.elapse left
    { b with line := b.line.endDead pending }
  | _ => b

/-- DEAD_TIME_END (R116). -/
def execDeadTimeEnd (s : State) : Host.Outcome State Fault Refusal := s.onBlock Block.deadTimeEnd

end Sys2Proof.Machine
end

