-- ==== Sys2Proof/Machine/Operands.lean ====
section
/-! DEFINITION. The operand forms of the mailbox: bytes merged into the shadows (R183, R187), the arguments that a
command reads from the command slot shadow (R202), and the slot bytes that a command row's write carries. -/

namespace Sys2Proof.Machine

/-- A shadow with the enabled bytes of a copied write merged in; a byte whose strobe is clear stays (R183). -/
def mergeShadow {n : Nat} (old : Vector Byte n) (bytes : Vector (Option Byte) n) : Vector Byte n :=
  Vector.ofFn fun i => bytes[i].getD old[i]

/-- The argument of `size` bytes at `offset` of the command slot shadow (R202). -/
def Decoder.argument (d : Decoder) (offset size : Nat) : Nat := fieldAt d.slot.toList offset size

/-- The kind word of the shadow (R184). -/
def Decoder.kind (d : Decoder) : Nat := d.argument 0 4

/-- The consumer index shadow as a number (R187). -/
def Decoder.consumerValue (d : Decoder) : Counter := BitVec.ofNat 32 (leNat d.consumerWord.toList)

/-! ### Codes of R202 -/

def portOfCode : Nat → Option PortId
  | 1 => some .capture
  | 2 => some .system
  | _ => none

def policyOfCode : Nat → Option Policy
  | 0 => some .mark
  | 1 => some .contain
  | _ => none

def failResponseOfCode : Nat → Option FailResponse
  | 0 => some .allOnes
  | 1 => some .error
  | _ => none

def sourceOfCode : Nat → Option LogSource
  | 1 => some .capture
  | 2 => some .system
  | 3 => some .memory
  | 4 => some .line
  | _ => none

def senseOfCode : Nat → Option Sense
  | 0 => some .normal
  | 1 => some .reversed
  | _ => none

def polarityOfCode : Nat → Option Polarity
  | 0 => some .rising
  | 1 => some .falling
  | _ => none

def reportModeOfCode : Nat → Option ReportMode
  | 0 => some .all
  | 1 => some .defects
  | 2 => some .none
  | _ => none

/-- Interrupt enable: 0 OFF, 1 ON. -/
def enableOfCode : Nat → Option Bool
  | 0 => some false
  | 1 => some true
  | _ => none

/-- The gate mode argument of SET_LINE; `keep` leaves the gate mode as it stands (R190). -/
inductive GateModeArg where
  | keep
  | off
  | active
  deriving DecidableEq, Repr

def gateModeOfCode : Nat → Option GateModeArg
  | 0 => some .keep
  | 1 => some .off
  | 2 => some .active
  | _ => none

/-! ### Slot bytes of a command row -/

/-- A field that a copied write carries: offset, size, value. -/
structure SlotField where
  offset : Nat
  size   : Nat
  value  : Nat
  deriving DecidableEq, Repr

/-- The byte that a list of fields puts at a slot offset. -/
def slotByte (offset : Nat) : List SlotField → Option Byte
  | [] => none
  | f :: rest =>
    if f.offset ≤ offset ∧ offset < f.offset + f.size then
      some (BitVec.ofNat 8 (f.value / 256 ^ (offset - f.offset)))
    else slotByte offset rest

/-- The slot bytes of one write that carries these fields and the kind word (R184, R202). -/
def commandBytes (kind : Nat) (fields : List SlotField) : Vector (Option Byte) 64 :=
  Vector.ofFn fun i => slotByte i (⟨0, 4, kind⟩ :: fields)

end Sys2Proof.Machine
end

