-- ==== Sys2Proof/Machine/Internal.lean ====
section
/-! DEFINITION. The owners of internal requests: FETCH_READ_ISSUE (R11), RING_SLOT_WRITE (R174) and
INTERNAL_HANDOVER (R157). -/

namespace Sys2Proof.Machine

/-! ### Fetch reads -/

/-- The load whose next fetch read is due: a load in progress without a read outstanding (R11). -/
def Block.dueLoad (b : Block) : Option Load :=
  match b.store.load? with
  | some l => if l.outstanding.isNone then some l else none
  | none => none

/-- The loader hands its next fetch read to the internal master (R11). -/
def Block.handFetch (b : Block) (l : Load) : Block :=
  let read : FetchRead := ⟨b.stamp, l.nextOffset⟩
  { b.enqueue (.fetch l.nextAddress l.nextBeats) with
    store := b.store.setLoad
      { l with outstanding := some read, nextOffset := l.nextOffset + 16 * beatCount l.nextBeats } }

/-- The loader issues its next fetch read, or begins to wait for room (R11, R157). Without a read that is due, or
when the loader already waits, nothing happens (log entry 2). -/
def Block.fetchReadIssue (b : Block) : Block :=
  match b.dueLoad with
  | none => b
  | some l =>
    if b.master.waiters.contains .fetch then b
    else if b.mayHandOver then b.handFetch l
    else b.wait .fetch

/-- FETCH_READ_ISSUE (R11). -/
def execFetchReadIssue (s : State) : Host.Outcome State Fault Refusal := s.onBlock Block.fetchReadIssue

/-! ### Slot writes -/

/-- The ring and the head record of a slot write that may be handed over, but for the room: a ring is
configured, the output queue holds a record, no slot write is in progress, no producer word write waits to be
handed over, and the occupancy is below the size (R174). -/
def Block.dueSlot (b : Block) : Option (Ring × RingRecord) :=
  match b.writer.ring, b.writer.queue, b.writer.slotWrite with
  | some ring, r :: _, none =>
    if !b.master.waiters.any Waiter.isProducerWord && decide (b.writer.occupancy < ring.size) then some (ring, r)
    else none
  | _, _, _ => none

/-- The internal work of a slot write: the head record as two beats to its slot (R174, R201). -/
def slotWork (ring : Ring) (producer : Counter) (r : RingRecord) : InternalWork :=
  .slotWrite (ring.slotAddr producer) (packBeat r.bytes) (packBeat (r.bytes.drop 16))

/-- The record writer hands a slot write to the internal master (R174). -/
def Block.handSlot (b : Block) (ring : Ring) (r : RingRecord) : Block :=
  { b.enqueue (slotWork ring b.writer.producer r) with writer := { b.writer with slotWrite := some b.stamp } }

/-- The record writer hands over the head record's slot write, or begins to wait for room (R174). When a
condition does not hold, or it already waits, nothing happens (log entry 2). -/
def Block.ringSlotWrite (b : Block) : Block :=
  match b.dueSlot with
  | none => b
  | some (ring, r) =>
    if b.master.waiters.contains .slotWrite then b
    else if b.mayHandOver then b.handSlot ring r
    else b.wait .slotWrite

/-- RING_SLOT_WRITE (R174). -/
def execRingSlotWrite (s : State) : Host.Outcome State Fault Refusal := s.onBlock Block.ringSlotWrite

/-! ### Owners that waited -/

/-- An owner that has waited hands its request over, if it still has one: the conditions of a slot write are
tested at the hand-over (R157, R174; log entry 21). -/
def Block.handWaiter (b : Block) (w : Waiter) : Block :=
  match w with
  | .fetch =>
    match b.dueLoad with
    | some l => b.handFetch l
    | none => b
  | .slotWrite =>
    match b.dueSlot with
    | some (ring, r) => b.handSlot ring r
    | none => b
  | .producerWord value => b.enqueue (.producerWord value)
  | .statusBlock => b.enqueue .statusBlock

/-- The waiting owners hand over in the order in which their waits began, as long as there is room (R157). -/
def Block.drainWaiters : List Waiter → Block → Block
  | [], b => { b with master := { b.master with waiters := [] } }
  | w :: rest, b =>
    let b := { b with master := { b.master with waiters := rest } }
    if b.masterHasRoom then Block.drainWaiters rest (b.handWaiter w)
    else { b with master := { b.master with waiters := w :: rest } }

/-- Owners waiting for room hand over their requests as places come free (R157). -/
def Block.internalHandover (b : Block) : Block := Block.drainWaiters b.master.waiters b

/-- INTERNAL_HANDOVER (R157). -/
def execInternalHandover (s : State) : Host.Outcome State Fault Refusal := s.onBlock Block.internalHandover

end Sys2Proof.Machine
end

