-- ==== Sys2Proof/Machine/Mailbox.lean ====
section
/-! DEFINITION. The mailbox decoder and its commands (10): copied writes (R183, R187, R188), the consumer index
(R177), the nine commands, and the commands of the table that come through the mailbox. -/

namespace Sys2Proof.Machine

/-! ### The consumer index (R177, R178) -/

/-- A consumer value is applied: taken when it lies within one ring of the producer index, and otherwise clamped
to it with S_CONSUMER_RANGE (R177); RING_IRQ is then re-evaluated. Without a ring the update is ignored. -/
def Block.applyConsumer (b : Block) (u : ConsumerUpdate) : Block :=
  match b.writer.ring with
  | none => b
  | some ring =>
    if (b.writer.producer - u.value).toNat ≤ ring.size then
      { b with writer := { b.writer with consumer := u.value }.updateIrq }
    else
      let b := { b with writer := { b.writer with consumer := b.writer.producer }.updateIrq }
      b.report ⟨.sConsumerRange, .minor, u.master, u.addr, 0⟩

/-- The record writer takes a consumer update: ignored without a ring, held while a slot write is in progress,
and applied at once otherwise (R177, R178). -/
def Block.takeConsumer (b : Block) (u : ConsumerUpdate) : Block :=
  match b.writer.ring, b.writer.slotWrite with
  | none, _ => b
  | some _, some _ => { b with writer := { b.writer with heldUpdate := some u } }
  | some _, none => b.applyConsumer u

/-! ### The nine commands: the owner's decision (R185) -/

/-- LOAD_PROGRAM (R8). -/
def Block.loadProgram (b : Block) : Block × CommandOutcome :=
  let address := b.decoder.argument 8 8
  match b.store.loadingBank with
  | some _ => (b, .busy)
  | none =>
    if address % 16 ≠ 0 ∨ addrLimit ≤ address then (b, .badArgument)
    else ({ b with store := b.store.startLoad (BitVec.ofNat 40 address) }.askRewrite, .started)

/-- ABORT_LOAD (R9). -/
def Block.abortLoad (b : Block) : Block × CommandOutcome :=
  match b.store.loadingBank with
  | some _ => (b.endLoad .aborted 0, .done)
  | none => (b, .wrongState)

/-- A power of two from 16 to 65536 (R172). -/
def legalRingSize (n : Nat) : Bool := (List.range 13).any fun k => n == 16 * 2 ^ k

/-- A range shares a byte with the frame window of a program, if there is one (R172). -/
def overlapsWindow (r : Range) (p : Option Program) : Bool :=
  match p with
  | some q => r.overlaps q.header.window
  | none => false

/-- SET_RING's effects (R173). -/
def Block.configureRing (b : Block) (ring : Ring) : Block :=
  { b with
    writer := { b.writer with
      ring := some ring, producer := 0, consumer := 0, heldUpdate := none, slotWrite := none }.updateIrq
    decoder := { b.decoder with consumerWord := Vector.replicate 4 0 } }

/-- The arguments of SET_RING are good (R172, step 1). -/
def Block.ringArgumentsOk (b : Block) (base size irq : Nat) : Bool :=
  let range : Range := ⟨base, base + 32 * size - 1⟩
  decide (base % 32 = 0) && legalRingSize size && decide (base + 32 * size ≤ addrLimit)
    && (enableOfCode irq).isSome && !range.overlaps b.decoder.window
    && !overlapsWindow range b.store.readyProgram && !overlapsWindow range b.store.activeProgram

/-- SET_RING (R172). -/
def Block.setRing (b : Block) : Block × CommandOutcome :=
  let base := b.decoder.argument 8 8
  let size := b.decoder.argument 16 4
  let irq := b.decoder.argument 20 1
  if !b.ringArgumentsOk base size irq then (b, .badArgument)
  else if b.writer.ring.isSome && b.writer.producer != b.writer.consumer then (b, .wrongState)
  else (b.configureRing ⟨BitVec.ofNat 40 base, size, irq == 1⟩, .done)

/-- The line configuration and gate mode argument that SET_LINE's arguments name, none when an argument is out
of its range or names nothing (R190, R202). -/
def Decoder.lineArguments (d : Decoder) : Option (LineConfig × GateModeArg) :=
  let diverter := d.argument 4 4
  let window := d.argument 8 4
  let deadTime := d.argument 12 4
  let timeout := d.argument 16 4
  let holds := d.argument 23 1
  if 1 ≤ diverter ∧ diverter ≤ 2 ^ 30 ∧ 1 ≤ window ∧ window ≤ 2 ^ 20 ∧ deadTime ≤ 65535
      ∧ timeout ≤ 2 ^ 30 ∧ holds < 8 then
    match senseOfCode (d.argument 20 1), polarityOfCode (d.argument 21 1), reportModeOfCode (d.argument 22 1),
        gateModeOfCode (d.argument 24 1) with
    | some sense, some polarity, some report, some gate =>
      some (⟨true, diverter, window, deadTime, timeout, sense, polarity, report,
        holds.testBit 0, holds.testBit 1, holds.testBit 2⟩, gate)
    | _, _, _, _ => none
  else none

/-- The gate mode argument of SET_LINE acts: OFF while ACTIVE releases the driver, ACTIVE while OFF leaves it as
it stands, and a change asks for a rewrite (R118, R191). -/
def Block.setGateMode (b : Block) (g : GateModeArg) : Block :=
  match g, b.line.gateMode with
  | .off, .active => { b with line := { b.line with gateMode := .off }.letGo }.askRewrite
  | .active, .off => { b with line := { b.line with gateMode := .active } }.askRewrite
  | _, _ => b

/-- SET_LINE (R190, R191). -/
def Block.setLine (b : Block) : Block × CommandOutcome :=
  match b.decoder.lineArguments with
  | none => (b, .badArgument)
  | some (config, gate) =>
    if !b.line.queue.isEmpty then (b, .wrongState)
    else if b.line.gateMode = .held ∧ gate ≠ .keep then (b, .wrongState)
    else ({ b with line := { b.line with config := config } }.setGateMode gate, .done)

/-- SET_PORT_POLICY (R164). -/
def Block.setPortPolicy (b : Block) : Block × CommandOutcome :=
  let limit := b.decoder.argument 8 2
  match portOfCode (b.decoder.argument 4 1), policyOfCode (b.decoder.argument 5 1),
      failResponseOfCode (b.decoder.argument 6 1) with
  | some i, some policy, some fail =>
    let b := b.setPort i { b.port i with policy := policy, failResponse := fail }
    (if limit = 0 then b else { b with memory := { b.memory with responseLimit := limit } }, .done)
  | _, _, _ => (b, .badArgument)

/-- CLEAR_LOG (R128). -/
def Block.clearLog (b : Block) : Block × CommandOutcome :=
  match sourceOfCode (b.decoder.argument 4 1) with
  | some src => ({ b with logs := b.logs.setLog src .fresh }, .done)
  | none => (b, .badArgument)

/-- The log of a port. -/
def portLog : PortId → LogSource
  | .capture => .capture
  | .system => .system

/-- A log holds a FATAL error (R137). -/
def ErrorLog.holdsFatal (l : ErrorLog) : Bool :=
  match l.held with
  | some e => e.severity == .fatal
  | none => false

/-- RESUME_PORT (R137). -/
def Block.resumePort (b : Block) : Block × CommandOutcome :=
  match portOfCode (b.decoder.argument 4 1) with
  | none => (b, .badArgument)
  | some i =>
    if (b.logs.log (portLog i)).holdsFatal then (b, .wrongState)
    else match (b.port i).containment with
      | .opened => (b, .done)
      | .contained => ((b.setPort i { b.port i with containment := .opened }).askRewrite, .done)

/-- RELEASE_GATE (R145). -/
def Block.releaseGate (b : Block) : Block × CommandOutcome :=
  match b.line.gateMode with
  | .held => ({ b with line := b.line.release }.askRewrite, .done)
  | _ => (b, .wrongState)

/-- The frame tracker has a segment in hand: the event says so, the frame is OPEN and a segment is left (R192;
log entry 10). -/
def Block.holdsSegment (b : Block) (segmentInHand : Bool) : Bool :=
  segmentInHand && b.tracker.state == .opened &&
    (match b.tracker.burst with
      | some burst => !burst.segments.isEmpty
      | none => false)

/-- INSPECTION_RESET (R192). -/
def Block.inspectionReset (b : Block) (segmentInHand : Bool) : Block × CommandOutcome :=
  if b.decoder.resetPending then (b, .busy)
  else if b.tracker.state = .closing ∨ b.holdsSegment segmentInHand then
    ({ b with decoder := { b.decoder with resetPending := true } }, .started)
  else (b.takeInspectionReset, .done)

/-! ### Taking a command (R184, R185) -/

/-- The owner's decision on the command that a kind word names (R185). -/
def Block.decideCommand (b : Block) (kind : Nat) (segmentInHand : Bool) : Block × CommandOutcome :=
  match kind with
  | 1 => b.loadProgram
  | 2 => b.abortLoad
  | 3 => b.setRing
  | 4 => b.setLine
  | 5 => b.setPortPolicy
  | 6 => b.clearLog
  | 7 => b.resumePort
  | 8 => b.releaseGate
  | 9 => b.inspectionReset segmentInHand
  | _ => (b, .unknownKind)

/-- A command taken with its outcome: counted, its kind and outcome recorded, a rewrite asked for (R185). -/
def Block.recordCommand (b : Block) (kind : Nat) (outcome : CommandOutcome) : Block :=
  { b with decoder := { b.decoder with
      commandCount := b.decoder.commandCount + 1
      lastKind := BitVec.ofNat 32 kind
      lastOutcome := outcome } }.askRewrite

/-- A command is taken (R185). -/
def Block.takeCommand (b : Block) (segmentInHand : Bool) : Block :=
  let kind := b.decoder.kind
  let decided := b.decideCommand kind segmentInHand
  decided.1.recordCommand kind decided.2

/-- A copied system write as the mailbox decoder gets it: its enabled bytes of the command slot and of the
consumer index word, its master ID and address (R163). -/
structure MailboxCopy where
  master : MasterId
  addr   : Addr
  slot   : Vector (Option Byte) 64
  word   : Vector (Option Byte) 4
  deriving DecidableEq, Repr

/-- Some byte of the kind word is enabled (R184). -/
def MailboxCopy.enablesKind (c : MailboxCopy) : Bool :=
  c.slot[0].isSome || c.slot[1].isSome || c.slot[2].isSome || c.slot[3].isSome

/-- Some byte of the consumer index word is enabled (R187). -/
def MailboxCopy.enablesWord (c : MailboxCopy) : Bool := c.word.toList.any (·.isSome)

/-- The shadows with a copy's enabled bytes (R183, R187, R188 step 1). -/
def Block.mergeCopy (b : Block) (c : MailboxCopy) : Block :=
  { b with decoder := { b.decoder with
      slot := mergeShadow b.decoder.slot c.slot
      consumerWord := mergeShadow b.decoder.consumerWord c.word } }

/-- The mailbox decoder acts on a copied write: the shadows, then the consumer update, then the command
(R188). -/
def Block.decodeCopy (b : Block) (c : MailboxCopy) (segmentInHand : Bool) : Block :=
  let b := b.mergeCopy c
  let b := if c.enablesWord then b.takeConsumer ⟨b.decoder.consumerValue, c.master, c.addr⟩ else b
  if c.enablesKind && b.decoder.kind != 0 then b.takeCommand segmentInHand else b

/-- No byte enabled. -/
def noBytes {n : Nat} : Vector (Option Byte) n := Vector.replicate n none

/-- The copy of a write that enables slot bytes alone. -/
def slotCopy (bytes : Vector (Option Byte) 64) : MailboxCopy := ⟨0, 0, bytes, noBytes⟩

/-- The decoder acts on a write that carries these fields of the command slot and the kind word. -/
def Block.commandWrite (b : Block) (kind : Nat) (fields : List SlotField) (segmentInHand : Bool) : Block :=
  b.decodeCopy (slotCopy (commandBytes kind fields)) segmentInHand

/-! ### The commands of the table -/

/-- MAILBOX_SHADOW_WRITE (R183). -/
def execMailboxShadowWrite (bytes : Vector (Option Byte) 64) (s : State) : Host.Outcome State Fault Refusal :=
  s.onBlock fun b => b.decodeCopy (slotCopy bytes) false

/-- CONSUMER_UPDATE (R177, R187). -/
def execConsumerUpdate (master : MasterId) (addr : Addr) (bytes : Vector (Option Byte) 4) (s : State) :
    Host.Outcome State Fault Refusal :=
  s.onBlock fun b => b.decodeCopy ⟨master, addr, noBytes, bytes⟩ false

/-- LOAD_PROGRAM (R8), with the program address. -/
def execLoadProgram (address : BitVec 64) (s : State) : Host.Outcome State Fault Refusal :=
  s.onBlock fun b => b.commandWrite 1 [⟨8, 8, address.toNat⟩] false

/-- ABORT_LOAD (R9). -/
def execAbortLoad (s : State) : Host.Outcome State Fault Refusal :=
  s.onBlock fun b => b.commandWrite 2 [] false

/-- SET_RING (R172). -/
def execSetRing (base : BitVec 64) (size : BitVec 32) (irq : Byte) (s : State) :
    Host.Outcome State Fault Refusal :=
  s.onBlock fun b =>
    b.commandWrite 3 [⟨8, 8, base.toNat⟩, ⟨16, 4, size.toNat⟩, ⟨20, 1, irq.toNat⟩] false

/-- The slot fields of SET_LINE (R202). -/
def lineFields (a : LineArgs) : List SlotField :=
  [⟨4, 4, a.diverter.toNat⟩, ⟨8, 4, a.window.toNat⟩, ⟨12, 4, a.deadTime.toNat⟩, ⟨16, 4, a.timeout.toNat⟩,
    ⟨20, 1, a.direction.toNat⟩, ⟨21, 1, a.edge.toNat⟩, ⟨22, 1, a.report.toNat⟩, ⟨23, 1, a.holds.toNat⟩,
    ⟨24, 1, a.gateMode.toNat⟩]

/-- SET_LINE (R190). -/
def execSetLine (args : LineArgs) (s : State) : Host.Outcome State Fault Refusal :=
  s.onBlock fun b => b.commandWrite 4 (lineFields args) false

/-- SET_PORT_POLICY (R164). -/
def execSetPortPolicy (port policy failResponse : Byte) (limit : BitVec 16) (s : State) :
    Host.Outcome State Fault Refusal :=
  s.onBlock fun b =>
    b.commandWrite 5
      [⟨4, 1, port.toNat⟩, ⟨5, 1, policy.toNat⟩, ⟨6, 1, failResponse.toNat⟩, ⟨8, 2, limit.toNat⟩] false

/-- CLEAR_LOG (R128). -/
def execClearLog (source : Byte) (s : State) : Host.Outcome State Fault Refusal :=
  s.onBlock fun b => b.commandWrite 6 [⟨4, 1, source.toNat⟩] false

/-- RESUME_PORT (R137). -/
def execResumePort (port : Byte) (s : State) : Host.Outcome State Fault Refusal :=
  s.onBlock fun b => b.commandWrite 7 [⟨4, 1, port.toNat⟩] false

/-- RELEASE_GATE (R145). -/
def execReleaseGate (s : State) : Host.Outcome State Fault Refusal :=
  s.onBlock fun b => b.commandWrite 8 [] false

/-- INSPECTION_RESET (R192). -/
def execInspectionReset (segmentInHand : Bool) (s : State) : Host.Outcome State Fault Refusal :=
  s.onBlock fun b => b.commandWrite 9 [] segmentInHand

/-- UNKNOWN_KIND (R185). -/
def execUnknownKind (kind : BitVec 32) (s : State) : Host.Outcome State Fault Refusal :=
  s.onBlock fun b => b.commandWrite kind.toNat [] false

end Sys2Proof.Machine
end

