-- ==== Sys2Proof/Machine/MemoryEvents.lean ====
section
/-! DEFINITION. The events of the memory port: ARBITER_GRANT (R154, R156 to R163, R189, R194), MEMORY_RESPONSE (R139,
R141, R162, R175, R176) and RESPONSE_TIMER_EXPIRY (R140). -/

namespace Sys2Proof.Machine

/-! ### What the sources present (R153, R154, R156, R157) -/

/-- A request that a source presents to the arbiter. -/
inductive Presented where
  | write (port : PortId) (w : BufferedWrite)
  | read (port : PortId) (r : ListedRead)
  | internal (r : InternalRequest)
  deriving DecidableEq, Repr

/-- The source of an upstream port. -/
def portSource : PortId → Source
  | .capture => .capture
  | .system => .system

/-- The head write of a port's buffer when it is READY and meets the conditions of the memory port (R154). -/
def Block.freeWrite (b : Block) (i : PortId) : Option BufferedWrite :=
  match (b.port i).buffer with
  | w :: _ =>
    if w.state == .ready && decide (b.memory.outstanding (portSource i) .write < Config.outstandingWrites)
        && !b.memory.conflicts (byteRange w.addr w.beats) .write then some w
    else none
  | [] => none

/-- A write that the port took before this read, and that overlaps it, is still in the buffer (R153). -/
def Port.olderWrite (p : Port) (r : ListedRead) : Bool :=
  p.buffer.any fun w =>
    decide (w.stamp < r.stamp) && (byteRange w.addr w.beats).overlaps (byteRange r.addr r.beats)

/-- A write that the internal master took before this read, and that overlaps it, is still in its queue
(R156). A producer word write that still waits for room is not in the queue and holds no read back, though R175
speaks of a read behind the pending write (log entry 43). -/
def Block.olderInternalWrite (b : Block) (r : ListedRead) : Bool :=
  b.master.queue.any fun q =>
    decide (q.stamp < r.stamp) && q.work.direction == .write
      && (b.workRange q.work).overlaps (byteRange r.addr r.beats)

/-- The head read of a port's read list when no older write holds it back and it meets the conditions of the
memory port (R153, R154, R156). -/
def Block.freeRead (b : Block) (i : PortId) : Option ListedRead :=
  match (b.port i).reads with
  | r :: _ =>
    if !(b.port i).olderWrite r && !(i == .system && b.olderInternalWrite r)
        && decide (b.memory.outstanding (portSource i) .read < Config.outstandingReads)
        && !b.memory.conflicts (byteRange r.addr r.beats) .read then some r
    else none
  | [] => none

/-- What an upstream port presents: of its head write and its head read, the one that may go, or the one taken
first when both may (R154). -/
def Block.portPresents (b : Block) (i : PortId) : Option Presented :=
  match b.freeWrite i, b.freeRead i with
  | none, none => none
  | some w, none => some (.write i w)
  | none, some r => some (.read i r)
  | some w, some r => if w.stamp < r.stamp then some (.write i w) else some (.read i r)

/-- What the internal master presents: the head of its queue, when fewer than 8 internal requests are
outstanding and it conflicts with none (R157). -/
def Block.masterPresents (b : Block) : Option Presented :=
  match b.master.queue with
  | q :: _ =>
    if b.memory.outstanding .internal .read + b.memory.outstanding .internal .write < Config.outstandingInternal
        ∧ !b.memory.conflicts (b.workRange q.work) q.work.direction then some (.internal q)
    else none
  | [] => none

/-- What a source presents. -/
def Block.presents (b : Block) : Source → Option Presented
  | .capture => b.portPresents .capture
  | .system => b.portPresents .system
  | .internal => b.masterPresents

/-- The next source in the cyclic order capture, system, internal (R161). -/
def Source.next : Source → Source
  | .capture => .system
  | .system => .internal
  | .internal => .capture

/-- The request of the first presenting source in cyclic order after the last grantee (R161). -/
def Block.granted (b : Block) : Option Presented :=
  let first := b.memory.lastGrantee.next
  match b.presents first, b.presents first.next, b.presents first.next.next with
  | some x, _, _ => some x
  | none, some x, _ => some x
  | none, none, x => x

/-! ### Sending (R158, R159) -/

/-- The tags not held in the outstanding table (R158). -/
def MemoryPort.freeTags (m : MemoryPort) : List Nat :=
  (List.range Config.tags).filter fun t => !m.table.any fun e => e.tag == t

/-- The tag that the memory port chooses for a request, any of those not held (R158; log entry 9). -/
def MemoryPort.pickTag (m : MemoryPort) (pick : Nat) : Option Nat := m.freeTags[pick % m.freeTags.length]?

/-- A request with its parity computed anew (R158). -/
def newRequest (tag : Nat) (master : MasterId) (addr : Addr) (beats : BeatField) (dir : Direction)
    (data : List SentBeat) : SentRequest :=
  ⟨tag, master, addr, beats, dir, requestParity master addr beats dir, data⟩

/-- A beat of an upstream write as it is sent: data and strobes unchanged, parity computed anew, a poison mark
when it is bad (R151, R158). -/
def TakenBeat.send (t : TakenBeat) : SentBeat := ⟨t.data, t.strobes, beatParity t.data, t.bad⟩

/-- A beat of an internal write (R157, R158). -/
def ownBeat (strobes : BeatBits) (data : Beat) : SentBeat := ⟨data, strobes, beatParity data, false⟩

/-- A request is sent to memory for an owner: it enters the outstanding table, its response timer started at the
limit in force, and its source is the last grantee (R140, R159, R161). -/
def MemoryPort.send (m : MemoryPort) (owner : EntryOwner) (q : SentRequest) : MemoryPort where
  table := m.table ++ [⟨q.tag, owner, q.master, q.addr, q.beats, q.direction, m.responseLimit⟩]
  responseLimit := m.responseLimit
  lastGrantee := owner.source
  sent := m.sent ++ [q]

/-- The request that an upstream write is sent as (R151). -/
def BufferedWrite.request (w : BufferedWrite) (tag : Nat) : SentRequest :=
  newRequest tag w.master w.addr w.beats .write (w.taken.map TakenBeat.send)

/-- The request that an upstream read is sent as (R158). -/
def ListedRead.request (r : ListedRead) (tag : Nat) : SentRequest :=
  newRequest tag r.master r.addr r.beats .read []

/-- The value of a producer word write in its beat: bytes 8 to 11, where the producer word stands (R203). -/
def producerBeat (value : Counter) : Beat := BitVec.ofNat 128 (value.toNat * 2 ^ 64)

/-- The beats of an internal request. A status write takes its contents from the block as it stands; a producer
word write sets the strobes of its four bytes alone (R157, R194, R203). -/
def Block.workBeats (b : Block) : InternalWork → List SentBeat
  | .fetch _ _ => []
  | .slotWrite _ first second => [ownBeat (BitVec.allOnes 16) first, ownBeat (BitVec.allOnes 16) second]
  | .producerWord value => [ownBeat 0x0F00 (producerBeat value)]
  | .statusBlock => (packBeats 16 b.statusBytes).map (ownBeat (BitVec.allOnes 16))

/-- The request that an internal request is sent as. -/
def Block.workRequest (b : Block) (work : InternalWork) (tag : Nat) : SentRequest :=
  newRequest tag Config.internalMaster (b.workAddr work) work.beats work.direction (b.workBeats work)

/-- The owner of an internal request, as the table names it (R159). -/
def InternalRequest.owner (r : InternalRequest) : EntryOwner :=
  match r.work with
  | .fetch _ _ => .loader r.stamp
  | .slotWrite _ _ _ => .slotWrite r.stamp
  | .producerWord _ => .producerWord
  | .statusBlock => .statusWriter

/-! ### The mailbox copy (R163, R183, R187) -/

/-- The byte that a write carries for an address with its strobe set (R146, R183). -/
def BufferedWrite.enabledByte (w : BufferedWrite) (a : Nat) : Option Byte :=
  if a / 16 < w.addr.toNat / 16 then none
  else match w.taken[a / 16 - w.addr.toNat / 16]? with
    | some t => if t.strobes.getLsbD (a % 16) then some (beatByte t.data (a % 16)) else none
    | none => none

/-- The bytes that a write carries with their strobes set for `n` addresses from `base` on; none when the write's
byte range does not reach them (R183, R187; log entry 19). -/
def BufferedWrite.enabledBytes (w : BufferedWrite) (base n : Nat) : Vector (Option Byte) n :=
  Vector.ofFn fun k =>
    if (byteRange w.addr w.beats).overlaps ⟨base, base + n - 1⟩ then w.enabledByte (base + k) else none

/-- The copy of a system write that the mailbox decoder gets (R163). -/
def Decoder.copyOf (d : Decoder) (w : BufferedWrite) : MailboxCopy where
  master := w.master
  addr := w.addr
  slot := w.enabledBytes d.windowBase.toNat 64
  word := w.enabledBytes (d.windowBase.toNat + Config.consumerOffset) 4

/-- A write's byte range overlaps the mailbox window (R163, R189). -/
def Block.inWindow (b : Block) (w : BufferedWrite) : Bool :=
  (byteRange w.addr w.beats).overlaps b.decoder.window

/-! ### ARBITER_GRANT -/

/-- A granted write is sent and leaves the buffer; the head behind it settles (R150, R151). -/
def Block.forwardWrite (b : Block) (i : PortId) (w : BufferedWrite) (tag : Nat) : Block :=
  let p := b.port i
  let b := b.setPort i (Port.settleHead i { p with buffer := p.buffer.tail })
  { b with memory := b.memory.send (.upstream i w.stamp) (w.request tag) }

/-- What the grant of a write does besides sending it: a capture write that overlaps the mailbox window is
reported, a system write that does, without a bad beat, is copied to the mailbox decoder (R132, R163, R189). -/
def Block.afterWrite (b : Block) (i : PortId) (w : BufferedWrite) (segmentInHand : Bool) : Block :=
  if b.inWindow w then
    match i with
    | .capture => b.report ⟨.cMailboxForeign, .minor, w.master, w.addr, 0⟩
    | .system => if w.taken.any (·.bad) then b else b.decodeCopy (b.decoder.copyOf w) segmentInHand
  else b

/-- A granted read is sent and leaves the read list (R153). -/
def Block.forwardRead (b : Block) (i : PortId) (r : ListedRead) (tag : Nat) : Block :=
  let p := b.port i
  let b := b.setPort i { p with reads := p.reads.tail }
  { b with memory := b.memory.send (.upstream i r.stamp) (r.request tag) }

/-- The block sequence goes up at the grant of a status write, before its contents are taken (R194, R196). -/
def Block.countStatus (b : Block) (work : InternalWork) : Block :=
  if work.isStatus then { b with blockSequence := b.blockSequence + 1 } else b

/-- A granted internal request is sent and leaves the queue (R157). -/
def Block.forwardInternal (b : Block) (r : InternalRequest) (tag : Nat) : Block :=
  let b := b.countStatus r.work
  { b with
    memory := b.memory.send r.owner (b.workRequest r.work tag)
    master := { b.master with queue := b.master.queue.tail } }

/-- A request presented is granted: it is sent with its tag. -/
def Block.grant (b : Block) (x : Presented) (tag : Nat) (segmentInHand : Bool) : Block :=
  match x with
  | .write i w => (b.forwardWrite i w tag).afterWrite i w segmentInHand
  | .read i r => b.forwardRead i r tag
  | .internal r => b.forwardInternal r tag

/-- Memory can take a request: the arbiter grants a source that presents one; when none does it stays parked
(R161). -/
def Block.arbiterGrant (b : Block) (tagPick : Nat) (segmentInHand : Bool) : Block :=
  match b.granted, b.memory.pickTag tagPick with
  | some x, some tag => b.grant x tag segmentInHand
  | _, _ => b

/-- ARBITER_GRANT (R161). -/
def execArbiterGrant (tagPick : Nat) (segmentInHand : Bool) (s : State) : Host.Outcome State Fault Refusal :=
  s.onBlock fun b => b.arbiterGrant tagPick segmentInHand

/-! ### The end of a fetch read (R12, R13, R16, R17) -/

/-- A program's frame window shares a byte with the mailbox window or with the ring configured (R17). -/
def Block.windowOverlap (b : Block) (p : Program) : Bool :=
  p.header.window.overlaps b.decoder.window
    || (match b.writer.ring with
      | some ring => p.header.window.overlaps ring.range
      | none => false)

/-- The last joint has passed: the window overlap check, and then the bank is READY (R17). -/
def Block.completeLoad (b : Block) (p : Program) : Block :=
  if b.windowOverlap p then b.endLoad .windowOverlap 0
  else { b with store := b.store.finishLoad p }.askRewrite

/-- What the validation of a load gave takes effect (R11, R13, R17). -/
def Block.takeValidation (b : Block) : Validation → Block
  | .more l => { b with store := b.store.setLoad l }
  | .failed outcome index => b.endLoad outcome index
  | .passed p => b.completeLoad p

/-- The load in progress whose outstanding read has this number (R12). -/
def Block.loadOf (b : Block) (stamp : Nat) : Option (Load × FetchRead) :=
  match b.store.load? with
  | some l =>
    match l.outstanding with
    | some read => if read.stamp = stamp then some (l, read) else none
    | none => none
  | none => none

/-- The data of a fetch read reaches the loader; that of a load already ended is discarded (R12). -/
def Block.fetchDone (b : Block) (stamp : Nat) (data : List Beat) : Block :=
  match b.loadOf stamp with
  | some (l, _) =>
    b.takeValidation
      { l with received := l.received ++ data.flatMap beatBytes, outstanding := none }.validate
  | none => b

/-- A fetch read has failed; that of a load already ended is discarded (R12). -/
def Block.fetchFailed (b : Block) (stamp : Nat) : Block :=
  match b.loadOf stamp with
  | some (l, read) => b.endLoad .fetchError (l.failIndex read.offset)
  | none => b

/-! ### The end of a slot write (R175, R176, R178) -/

/-- The held consumer update, if any, is applied and removed (R178). -/
def Block.applyHeld (b : Block) : Block :=
  match b.writer.heldUpdate with
  | some u => { b with writer := { b.writer with heldUpdate := none } }.applyConsumer u
  | none => b

/-- The slot write is no longer in progress; a held consumer update is applied, and RING_IRQ re-evaluated
(R175, R176). -/
def Block.endSlotWrite (b : Block) : Block :=
  let b := { b with writer := { b.writer with slotWrite := none } }.applyHeld
  { b with writer := b.writer.updateIrq }

/-- A slot write is answered OKAY: the record leaves the output queue, the producer index goes up, and its word is
written (R175). A response to a write given up is discarded (R173). -/
def Block.slotDone (b : Block) (stamp : Nat) : Block :=
  if b.writer.slotWrite = some stamp then
    { b with writer := { b.writer with
        queue := b.writer.queue.tail, producer := b.writer.producer + 1 } }.writeProducerWord.endSlotWrite
  else b

/-- A slot write has failed: the record is dropped and counted (R176). A failure of a write given up is discarded
(R173). -/
def Block.slotFailed (b : Block) (stamp : Nat) : Block :=
  if b.writer.slotWrite = some stamp then
    { b with writer := { b.writer with queue := b.writer.queue.tail }.drop }.endSlotWrite
  else b

/-! ### MEMORY_RESPONSE and RESPONSE_TIMER_EXPIRY -/

/-- The table entry of a tag (R162). -/
def MemoryPort.entry (m : MemoryPort) (tag : Nat) : Option TableEntry := m.table.find? (·.tag == tag)

/-- The entry of a tag is removed, and its timer with it (R159, R162). -/
def Block.retire (b : Block) (tag : Nat) : Block :=
  { b with memory := { b.memory with table := b.memory.table.filter (·.tag != tag) } }

/-- The data beats of a response to an entry: none for a write, and as many as the beat count for a read; beats
that memory left out are free (R146; log entry 8). -/
def TableEntry.dataOf (e : TableEntry) (data : List Beat) : List Beat :=
  match e.direction with
  | .write => []
  | .read => (List.range (beatCount e.beats)).map fun k => data.getD k (Config.missingBeat e.tag k)

/-- The zero data beats with which a retired read is answered; none for a write (R140). -/
def TableEntry.zeroData (e : TableEntry) : List Beat :=
  match e.direction with
  | .write => []
  | .read => List.replicate (beatCount e.beats) 0

/-- The request of a port is answered (R149). -/
def Block.answerPort (b : Block) (i : PortId) (stamp : Nat) (response : Response) (data : List Beat) : Block :=
  b.setPort i ((b.port i).answer stamp response data)

/-- An error of the memory log, with the master ID and address of the request (R124). -/
def TableEntry.error (e : TableEntry) (code : ErrorCode) (severity : Severity) : LoggedError :=
  ⟨code, severity, e.master, e.addr, 0⟩

/-- An internal request has failed: the failure goes to its owner (R141). -/
def Block.ownerFails (b : Block) (owner : EntryOwner) : Block :=
  match owner with
  | .loader stamp => b.fetchFailed stamp
  | .slotWrite stamp => b.slotFailed stamp
  | _ => b

/-- An internal request is answered OKAY (R162). -/
def Block.ownerDone (b : Block) (owner : EntryOwner) (data : List Beat) : Block :=
  match owner with
  | .loader stamp => b.fetchDone stamp data
  | .slotWrite stamp => b.slotDone stamp
  | _ => b

/-- A response is routed by the source of its entry (R139, R141, R162; log entry 18). -/
def Block.route (b : Block) (e : TableEntry) (response : Response) (data : List Beat) : Block :=
  match e.owner, response with
  | .upstream i stamp, .okay => b.answerPort i stamp .okay (e.dataOf data)
  | .upstream i stamp, .error =>
    (b.answerPort i stamp .error (e.dataOf data)).report (e.error .mPassError .minor)
  | owner, .okay => b.ownerDone owner (e.dataOf data)
  | owner, .error => (b.report (e.error .mOwnError .degraded)).ownerFails owner

/-- Memory returns a response; one whose tag names no entry is discarded (R142, R162). A late response to a request
abandoned by a full reset or retired by its timer is discarded while its tag is free; once the tag is chosen again
the tag is all that R162 has to route by, and the response goes to the new request (log entry 41). -/
def Block.memoryResponse (b : Block) (tag : Nat) (response : Response) (data : List Beat) : Block :=
  match b.memory.entry tag with
  | none => b
  | some e => (b.retire tag).route e response data

/-- MEMORY_RESPONSE (R162). -/
def execMemoryResponse (tag : Nat) (resp : Response) (data : List Beat) (s : State) :
    Host.Outcome State Fault Refusal :=
  s.onBlock fun b => b.memoryResponse tag resp data

/-- A request retired by its timer, reported as M_TIMEOUT, ends for whom it was made: an upstream port answers it
ERROR, an internal request fails to its owner (R140, R141). -/
def Block.timeOut (b : Block) (e : TableEntry) : Block :=
  let b := b.report (e.error .mTimeout .degraded)
  match e.owner with
  | .upstream i stamp => b.answerPort i stamp .error e.zeroData
  | owner => b.ownerFails owner

/-- The response timer of the request with this tag expires: what is left of it passes, and the request is
retired (R140; log entry 3). A tag not held has no timer, and nothing happens. -/
def Block.responseTimerExpiry (b : Block) (tag : Nat) : Block :=
  match b.memory.entry tag with
  | none => b
  | some e => ((b.elapse e.timer).retire tag).timeOut e

/-- RESPONSE_TIMER_EXPIRY (R140). -/
def execResponseTimerExpiry (tag : Nat) (s : State) : Host.Outcome State Fault Refusal :=
  s.onBlock fun b => b.responseTimerExpiry tag

end Sys2Proof.Machine
end

