-- ==== Sys2Proof/Machine/PortEvents.lean ====
section
/-! DEFINITION. The events of the upstream ports: WRITE_REQUEST and READ_REQUEST (R129, R136, R148), WRITE_BEAT
(R130, R131, R135, R146). -/

namespace Sys2Proof.Machine

/-- A number for a request taken (log entry 14). -/
def Block.nextStamp (b : Block) : Block := { b with stamp := b.stamp + 1 }

/-- A request's parity failure reported, with its fields as they arrived (R129). -/
def Block.reportAddrParity (b : Block) (i : PortId) (r : Request) : Block :=
  b.report ⟨addrParityCode i, .fatal, r.master, r.addr, 0⟩

/-- A request enters the list of requests not yet answered (R149). -/
def Port.openRequest (p : Port) (stamp : Nat) (r : Request) (dir : Direction) (place : Bool) : Port :=
  { p with unanswered := p.unanswered ++ [⟨stamp, r.master, dir, place, none⟩] }

/-- A write is exempt from discard at a CONTAINED port: a system-port write whose first and last bytes lie
within the mailbox window (R135). -/
def Block.mailboxExempt (b : Block) (i : PortId) (r : Request) : Bool :=
  i == .system && (byteRange r.addr r.beats).within b.decoder.window

/-! ### WRITE_REQUEST -/

/-- A write request whose parity passed takes its place in the buffer, under the policy in force; taken while
the port is CONTAINED it will be discarded, unless it is exempt (R133, R135, R148). -/
def Block.takeWrite (b : Block) (i : PortId) (r : Request) : Block :=
  let p := b.port i
  let write : BufferedWrite :=
    { stamp := b.stamp, master := r.master, addr := r.addr, beats := r.beats, policy := p.policy, taken := []
      state := .taking, inspected := false
      doomed := p.containment == .contained && !b.mailboxExempt i r }
  (b.setPort i { p.openRequest b.stamp r .write false with buffer := p.buffer ++ [write] }).nextStamp

/-- A write request whose parity failed: its beats will be discarded, and the failure is reported (R129). -/
def Block.refuseWrite (b : Block) (i : PortId) (r : Request) : Block :=
  let p := b.port i
  let failed : FailedWrite := ⟨b.stamp, beatCount r.beats⟩
  let b := (b.setPort i { p.openRequest b.stamp r .write false with failing := p.failing ++ [failed] }).nextStamp
  b.reportAddrParity i r

/-- A write request at a port (R148); without room it stays with the partner and nothing changes (log entry
12). -/
def Block.writeRequest (b : Block) (i : PortId) (r : Request) : Block :=
  if (b.port i).buffer.length < Config.writeBufferPlaces then
    if requestParityOk r .write then b.takeWrite i r else b.refuseWrite i r
  else b

/-- WRITE_REQUEST (R148). -/
def execWriteRequest (port : PortId) (req : Request) (s : State) : Host.Outcome State Fault Refusal :=
  s.onBlock fun b => b.writeRequest port req

/-! ### READ_REQUEST -/

/-- A read request whose parity passed: listed, or answered at once with the fail response while the port is
CONTAINED (R136, R148). -/
def Block.takeRead (b : Block) (i : PortId) (r : Request) : Block :=
  let p := b.port i
  let read : ListedRead := ⟨b.stamp, r.master, r.addr, r.beats, p.failResponse⟩
  let opened := p.openRequest b.stamp r .read true
  match p.containment with
  | .opened => (b.setPort i { opened with reads := opened.reads ++ [read] }).nextStamp
  | .contained => (b.setPort i (opened.failRead read)).nextStamp

/-- A read request whose parity failed: answered ERROR whatever the fail response, and reported; the data of
that answer is free (R129; log entry 6). -/
def Block.refuseRead (b : Block) (i : PortId) (r : Request) : Block :=
  let data := (List.range (beatCount r.beats)).map (Config.refusedReadBeat b.stamp)
  let p := ((b.port i).openRequest b.stamp r .read false).answer b.stamp .error data
  ((b.setPort i p).nextStamp).reportAddrParity i r

/-- A read request at a port (R148); without room it stays with the partner and nothing changes (log entry
12). -/
def Block.readRequest (b : Block) (i : PortId) (r : Request) : Block :=
  if (b.port i).readsHeld < Config.readPlaces then
    if requestParityOk r .read then b.takeRead i r else b.refuseRead i r
  else b

/-- READ_REQUEST (R148). -/
def execReadRequest (port : PortId) (req : Request) (s : State) : Host.Outcome State Fault Refusal :=
  s.onBlock fun b => b.readRequest port req

/-! ### WRITE_BEAT -/

/-- A beat of a write whose request parity failed is discarded; after the last one the request is answered
ERROR (R129; log entry 15). -/
def Port.failedBeat (p : Port) (w : FailedWrite) : Port :=
  if w.left ≤ 1 then
    { p with failing := p.failing.filter (·.stamp != w.stamp) }.answer w.stamp .error []
  else
    { p with failing := p.failing.map fun v => if v.stamp = w.stamp then { v with left := w.left - 1 } else v }

/-- A write whose last beat has been taken and that goes on: WAITING, or READY at the head of the system port's
buffer (R150). -/
def Port.writeWaits (i : PortId) (p : Port) (w : BufferedWrite) : Port :=
  (p.setWrite { w with state := .waiting }).settleHead i

/-- The last beat of a write has been taken; `w` holds all its beats. A write with a bad beat under CONTAIN is
discarded, and so is a write to be discarded by containment, answered OKAY (R130, R131, R134, R135). The
parity failure is reported once, at the severity that the policy gives. -/
def Block.lastBeat (b : Block) (i : PortId) (w : BufferedWrite) : Block :=
  let bad := w.taken.any (·.bad)
  let p := b.port i
  let p := if w.doomed || (bad && w.policy == .contain) then p.discardWrite i w.stamp else p.writeWaits i w
  let b := b.setPort i p
  if bad then b.report ⟨dataParityCode i, w.policy.severity, w.master, w.addr, 0⟩ else b

/-- A beat of a write in the buffer (R130, R150). -/
def Block.bufferedBeat (b : Block) (i : PortId) (w : BufferedWrite) (beat : WriteBeat) : Block :=
  let w := { w with taken := w.taken ++ [⟨beat.data, beat.strobes, beatIsBad beat⟩] }
  if w.taken.length < beatCount w.beats then b.setPort i ((b.port i).setWrite w)
  else b.lastBeat i w

/-- A write data beat at a port; it is dropped when no write waits for beats (R146), and when it belongs to a write
that a full reset has lost (R165; log entry 44). -/
def Block.writeBeat (b : Block) (i : PortId) (beat : WriteBeat) : Block :=
  if beat.ofLostWrite then b
  else match (b.port i).beatTarget with
    | none => b
    | some (.failed w) => b.setPort i ((b.port i).failedBeat w)
    | some (.buffered w) => b.bufferedBeat i w beat

/-- WRITE_BEAT (R146, R165). -/
def execWriteBeat (port : PortId) (beat : WriteBeat) (s : State) : Host.Outcome State Fault Refusal :=
  s.onBlock fun b => b.writeBeat port beat

end Sys2Proof.Machine
end

