-- ==== Sys2Proof/Machine/Dispatch.lean ====
section
/-! DEFINITION. `exec`: the meaning of each command, one arm per constructor of `Instr`. -/

namespace Sys2Proof.Machine

def exec (i : Instr) (s : State) : Host.Outcome State Fault Refusal :=
  match i with
  | .fullReset kind mbxSel imgContain => Sys2Proof.Machine.execFullReset kind mbxSel imgContain s
  | .writeRequest port req => Sys2Proof.Machine.execWriteRequest port req s
  | .readRequest port req => Sys2Proof.Machine.execReadRequest port req s
  | .writeBeat port beat => Sys2Proof.Machine.execWriteBeat port beat s
  | .burstOffer => Sys2Proof.Machine.execBurstOffer s
  | .segment => Sys2Proof.Machine.execSegment s
  | .closing => Sys2Proof.Machine.execClosing s
  | .encoderStep a b => Sys2Proof.Machine.execEncoderStep a b s
  | .illegalStep => Sys2Proof.Machine.execIllegalStep s
  | .boardEdgeTrailing => Sys2Proof.Machine.execBoardEdgeTrailing s
  | .boardEdgeLeading => Sys2Proof.Machine.execBoardEdgeLeading s
  | .deadTimeEnd => Sys2Proof.Machine.execDeadTimeEnd s
  | .arbiterGrant tagPick segmentInHand => Sys2Proof.Machine.execArbiterGrant tagPick segmentInHand s
  | .mailboxShadowWrite bytes => Sys2Proof.Machine.execMailboxShadowWrite bytes s
  | .memoryResponse tag resp data => Sys2Proof.Machine.execMemoryResponse tag resp data s
  | .responseTimerExpiry tag => Sys2Proof.Machine.execResponseTimerExpiry tag s
  | .fetchReadIssue => Sys2Proof.Machine.execFetchReadIssue s
  | .ringSlotWrite => Sys2Proof.Machine.execRingSlotWrite s
  | .internalHandover => Sys2Proof.Machine.execInternalHandover s
  | .consumerUpdate master addr bytes => Sys2Proof.Machine.execConsumerUpdate master addr bytes s
  | .loadProgram address => Sys2Proof.Machine.execLoadProgram address s
  | .abortLoad => Sys2Proof.Machine.execAbortLoad s
  | .setRing base size irq => Sys2Proof.Machine.execSetRing base size irq s
  | .setLine args => Sys2Proof.Machine.execSetLine args s
  | .setPortPolicy port policy failResponse limit => Sys2Proof.Machine.execSetPortPolicy port policy failResponse limit s
  | .clearLog source => Sys2Proof.Machine.execClearLog source s
  | .resumePort port => Sys2Proof.Machine.execResumePort port s
  | .releaseGate => Sys2Proof.Machine.execReleaseGate s
  | .inspectionReset segmentInHand => Sys2Proof.Machine.execInspectionReset segmentInHand s
  | .unknownKind kind => Sys2Proof.Machine.execUnknownKind kind s
  | .boardEdgeSample high => Sys2Proof.Machine.execBoardEdgeSample high s

end Sys2Proof.Machine
end

