-- ==== Sys2Proof/Machine/Step.lean ====
section
/-! DEFINITION. One step of the machine: the command at the front of the queue, or a tick of the timebase. -/

namespace Sys2Proof.Machine

/-- A tick of the 1 microsecond timebase while no command waits (DESIGN CHOICE, log entry 1). -/
def State.tick (s : State) : State := { s with block := s.block.elapse 1 }

/-- One step: the command at the front of the queue acts on the rest; on an empty queue a microsecond passes. -/
def step (s : State) : Host.Outcome State Fault Refusal :=
  match s.pending with
  | [] => .next s.tick
  | c :: rest => exec c { s with pending := rest }

/-- The state with the command that a word spells at the front of its queue; unchanged where the word spells
none. -/
def State.withFetchWord (s : State) (nbits w : Nat) : State :=
  match Sys2Proof.decodeTableWord nbits w with
  | some c => { s with pending := c :: s.pending }
  | none => s

end Sys2Proof.Machine
end

