-- ==== Sys2Proof/WellFormed.lean ====
section
/-! DEFINITION. Well-formed commands: the operands that the spec gives an event can have. `exec` answers
ill-formed commands too (by the same rules); a sender is expected to send well-formed ones. -/

namespace Sys2Proof

/-- The enabled bytes of the kind word in a copied slot write (R184). -/
def kindBytes (bytes : Vector (Option Byte) 64) : List (Option Byte) :=
  [bytes[0], bytes[1], bytes[2], bytes[3]]

/-- R183: a shadow write that takes no command enables no byte of the kind word, or writes it whole as 0. -/
def takesNoCommand (bytes : Vector (Option Byte) 64) : Bool :=
  (kindBytes bytes).all (· == none) || (kindBytes bytes).all (· == some 0)

/-- Whether a command is one that the spec's events can be. -/
def Instr.wellFormed : Instr → Bool
  | .fullReset _ _ _ => true
  | .writeRequest _ _ => true
  | .readRequest _ _ => true
  | .writeBeat _ _ => true
  | .burstOffer => true
  | .segment => true
  | .closing => true
  | .encoderStep _ _ => true
  | .illegalStep => true
  | .boardEdgeTrailing => true
  | .boardEdgeLeading => true
  | .deadTimeEnd => true
  | .arbiterGrant _ _ => true
  | .mailboxShadowWrite bytes => takesNoCommand bytes
  -- R158: tags are 0..55; R146: a read has 1 to 16 beats, a write's response has none.
  | .memoryResponse tag _ data => decide (tag < 56) && decide (data.length ≤ 16)
  | .responseTimerExpiry tag => decide (tag < 56)
  | .fetchReadIssue => true
  | .ringSlotWrite => true
  | .internalHandover => true
  -- R187: a consumer update enables at least one byte of the word.
  | .consumerUpdate _ _ bytes => bytes.toList.any (· != none)
  | .loadProgram _ => true
  | .abortLoad => true
  | .setRing _ _ _ => true
  | .setLine _ => true
  | .setPortPolicy _ _ _ _ => true
  | .clearLog _ => true
  | .resumePort _ => true
  | .releaseGate => true
  | .inspectionReset _ => true
  -- R185: an unknown kind is neither 0 nor one of the codes 1 to 9.
  | .unknownKind kind => decide (9 < kind.toNat)
  | .boardEdgeSample _ => true

end Sys2Proof
end

