-- ==== Sys2Proof/Safety.lean ====
section
/-! DEFINITION. What a sound state is: the invariants that the spec gives the block, each over every command; and the
terms in which the statements speak, the tables of R201 to R203 among them. -/

namespace Sys2Proof.Machine

/-- The sizes that the spec gives the buffers, queues, counters and settings. -/
structure Block.CountsBounded (b : Block) : Prop where
  /-- R148: 8 places in each write buffer. -/
  writes : ∀ i, (b.port i).buffer.length ≤ 8
  /-- R148: 16 reads taken and not yet answered. -/
  reads : ∀ i, (b.port i).readsHeld ≤ 16
  /-- R157: 8 requests in the internal master's queue. -/
  internal : b.master.queue.length ≤ 8
  /-- R64: 512 accumulator records. -/
  records : b.joints.records.length ≤ 512
  /-- R104: 8 board entries. -/
  boards : b.line.queue.length ≤ 8
  /-- R170: 32 records in the output queue. -/
  output : b.writer.queue.length ≤ 32
  /-- R101: a run count of 0 to 3. -/
  run : b.line.runCount ≤ 3
  /-- R97: the untracked count saturates. -/
  untracked : b.line.untracked ≤ 65535
  /-- R167: the drop counter saturates. -/
  drops : b.writer.drops ≤ 4294967295
  /-- R140: a memory response limit of 1 to 65535. -/
  limit : 1 ≤ b.memory.responseLimit ∧ b.memory.responseLimit ≤ 65535
  /-- R98: the settings of a valid line configuration. -/
  settings : b.line.config.valid = true →
    (1 ≤ b.line.config.diverter ∧ b.line.config.diverter ≤ 2 ^ 30)
    ∧ (1 ≤ b.line.config.window ∧ b.line.config.window ≤ 2 ^ 20)
    ∧ b.line.config.deadTime ≤ 65535 ∧ b.line.config.timeout ≤ 2 ^ 30

/-- The ring (R167, R172, R174, R179): without a ring both indices are 0 and no slot write is in progress; with
one, its size is legal, the occupancy never exceeds the size and leaves room for a slot write in progress; and
RING_IRQ is as R179 says. -/
structure RecordWriter.RingSound (w : RecordWriter) : Prop where
  unset : w.ring = none → w.producer = 0 ∧ w.consumer = 0 ∧ w.slotWrite = none
  size : ∀ r, w.ring = some r → ∃ k ≤ 12, r.size = 16 * 2 ^ k
  occupancy : ∀ r, w.ring = some r → w.occupancy ≤ r.size
  room : ∀ r, w.ring = some r → w.slotWrite ≠ none → w.occupancy < r.size
  irq : w.ringIrq = true ↔ ∃ r, w.ring = some r ∧ r.irqOn = true ∧ w.producer ≠ w.consumer

/-- The gate driver holds the gate: REJECT_GATE driven without an end, or the hold pending (R119). -/
def GateDriver.holdsGate : GateDriver → Bool
  | .driving .reject none _ => true
  | .dead _ _ (some .hold) => true
  | _ => false

/-- The gate mode is HELD exactly while the gate driver holds the gate, and PASS_GATE is always driven to an
end position (R119, R120, R144). -/
structure Line.HoldSound (l : Line) : Prop where
  held : l.gateMode = .held ↔ l.driver.holdsGate = true
  passEnds : ∀ o, l.driver ≠ .driving .pass none o

/-- The outstanding table (R158 to R160): tags within 0..55, each held once; each source within its share; no two
entries overlap unless both are reads. -/
structure MemoryPort.TableSound (m : MemoryPort) : Prop where
  tags : ∀ e ∈ m.table, e.tag < 56
  distinct : (m.table.map (·.tag)).Nodup
  writes : ∀ i, m.outstanding (portSource i) .write ≤ 8
  reads : ∀ i, m.outstanding (portSource i) .read ≤ 16
  internal : m.outstanding .internal .read + m.outstanding .internal .write ≤ 8
  apart : m.table.Pairwise fun e f =>
    e.range.overlaps f.range = true → e.direction = .read ∧ f.direction = .read

/-- The program banks (R6): at most one is LOADING, at most one READY, at most one ACTIVE; while one is LOADING
none is READY. -/
structure ProgramStore.BanksSound (s : ProgramStore) : Prop where
  loading : ¬ (s.bank0.load?.isSome ∧ s.bank1.load?.isSome)
  ready : ¬ (s.bank0.ready?.isSome ∧ s.bank1.ready?.isSome)
  active : ¬ (s.bank0.active?.isSome ∧ s.bank1.active?.isSome)
  candidate : ¬ (s.bank0.load?.isSome ∧ s.bank1.ready?.isSome) ∧ ¬ (s.bank0.ready?.isSome ∧ s.bank1.load?.isSome)
  /-- R7: while a load is in progress the record is empty apart from its target. -/
  record : ∀ i, s.loadingBank = some i → s.record = ⟨some i, none, 0⟩

/-- The frame and the open joint set (R6, R22, R59, R62, R78): outside IDLE a bank is ACTIVE; in IDLE there is no
burst in progress and no record; a close kind stands exactly in CLOSING; the records stand in ascending table
index, below the admission pointer. -/
structure Block.FrameSound (b : Block) : Prop where
  banks : b.store.BanksSound
  active : b.tracker.state ≠ .idle → b.store.activeProgram.isSome
  idle : b.tracker.state = .idle → b.tracker.burst = none ∧ b.joints.records = []
  kind : b.tracker.state = .closing ↔ b.tracker.closeKind ≠ none
  ascending : (b.joints.records.map (·.index)).Pairwise (· < ·)
  below : ∀ a ∈ b.joints.records, a.index < b.joints.pointer

/-- The board queue (R36, R98, R102, R104): serials in the order of entry, the newest one below the serial counter;
every due position one diverter distance after its entry; an IMAGING entry is the board bound to the frame that
is not IDLE. -/
structure Block.QueueSound (b : Block) : Prop where
  serials : ∀ k (h : k < b.line.queue.length),
    (b.line.queue[k]).serial = b.line.serial - BitVec.ofNat 16 (b.line.queue.length - k)
  due : ∀ x ∈ b.line.queue, x.due = x.entry + BitVec.ofNat 32 b.line.config.diverter
  imaging : ∀ x ∈ b.line.queue, ∀ f, x.state = .imaging f →
    b.tracker.state ≠ .idle ∧ f = b.tracker.number ∧ b.tracker.binding = some x.serial

/-- One write of a port's buffer (R130, R134, R135, R150). `head` says whether it is at the head. -/
structure BufferedWrite.Sound (b : Block) (i : PortId) (head : Bool) (w : BufferedWrite) : Prop where
  taking : w.state = .taking ↔ w.taken.length < beatCount w.beats
  whole : w.taken.length ≤ beatCount w.beats
  /-- READY and HELD only at the head. -/
  front : w.state = .ready ∨ w.state = .held → head = true
  /-- At the system port a whole write at the head is READY at once. -/
  settled : i = .system → head = true → w.state ≠ .waiting
  /-- HELD and Inspect at the capture port only; an inspected write is READY. -/
  heldPort : w.state = .held → i = .capture
  inspectedReady : w.inspected = true → i = .capture ∧ w.state = .ready
  /-- A write to be discarded is still taking its beats. -/
  doomed : w.doomed = true → w.state = .taking
  /-- A whole write with a bad beat is one taken under MARK. -/
  marked : w.state ≠ .taking → w.taken.any (·.bad) = true → w.policy = .mark
  /-- At a CONTAINED port every write will be discarded, but for an inspected one and those of the mailbox
  exemption. -/
  contained : (b.port i).containment = .contained → w.doomed = true ∨ w.inspected = true
    ∨ (i = .system ∧ (byteRange w.addr w.beats).within b.decoder.window = true)

/-- The ports (R42, R130, R134, R135, R149, R150): every buffered write is sound; no write is HELD in an OPEN frame;
a CONTAINED port lists no read; the numbers of requests are fresh and distinct; a decided answer is of its request's
master ID and direction, and waits only behind an earlier request of that kind that is undecided. -/
structure Block.PortsSound (b : Block) : Prop where
  writes : ∀ i k (h : k < (b.port i).buffer.length), ((b.port i).buffer[k]).Sound b i (k == 0)
  held : ∀ w ∈ b.capture.buffer, w.state = .held → b.tracker.state ≠ .opened
  noReads : ∀ i, (b.port i).containment = .contained → (b.port i).reads = []
  bufferStamps : ∀ i, ((b.port i).buffer.map (·.stamp)).Nodup
  openStamps : ∀ i, ((b.port i).unanswered.map (·.stamp)).Nodup
  fresh : ∀ i, (∀ w ∈ (b.port i).buffer, w.stamp < b.stamp) ∧ ∀ q ∈ (b.port i).unanswered, q.stamp < b.stamp
  own : ∀ i, ∀ q ∈ (b.port i).unanswered, ∀ a, q.decided = some a → a.master = q.master ∧ a.direction = q.direction
  waits : ∀ i k (h : k < (b.port i).unanswered.length), ((b.port i).unanswered[k]).decided ≠ none →
    ∃ j, ∃ hj : j < k, ((b.port i).unanswered[j]).decided = none
      ∧ ((b.port i).unanswered[j]).master = ((b.port i).unanswered[k]).master
      ∧ ((b.port i).unanswered[j]).direction = ((b.port i).unanswered[k]).direction

/-- The severity that R124 gives a code; a data parity error is DEGRADED or FATAL by the policy. -/
def ErrorCode.severities : ErrorCode → List Severity
  | .cAddrParity | .sAddrParity | .lQueueFull => [.fatal]
  | .cDataParity | .sDataParity => [.degraded, .fatal]
  | .cLaneRange | .cOrder | .cMailboxForeign | .sConsumerRange | .mPassError | .lLate => [.minor]
  | .mOwnError | .mTimeout | .lEncoder | .lFrameTimeout => [.degraded]

/-- The error logs (R123, R124): a held error has a code of its log's source and a severity of that code; an empty
log has its overflow flag clear. -/
structure ErrorLogs.Sound (l : ErrorLogs) : Prop where
  own : ∀ src e, (l.log src).held = some e → e.code.source = src ∧ e.severity ∈ e.code.severities
  clear : ∀ src, (l.log src).held = none → (l.log src).overflow = false

/-- The severity a log holds, 0 for an empty log (R125). -/
def ErrorLog.level (l : ErrorLog) : Nat :=
  match l.held with
  | some e => e.severity.code
  | none => 0

/-- A state with another block and the same queue of commands: what a command's next state is. -/
def State.withBlock (s : State) (b : Block) : State := { s with block := b }

/-- The mailbox decoder after a command row's write has been taken with an outcome: the write's bytes in the shadow,
the count, the kind and the outcome (R183, R185). -/
def Decoder.took (d : Decoder) (kind : Nat) (fields : List SlotField) (outcome : CommandOutcome) : Decoder :=
  { d with
    slot := mergeShadow d.slot (commandBytes kind fields)
    commandCount := d.commandCount + 1
    lastKind := BitVec.ofNat 32 kind
    lastOutcome := outcome }

/-- The command rows of the table: the kind word and the slot fields that the row's write carries (R185, R202). -/
def commandRow : Instr → Option (Nat × List SlotField)
  | .loadProgram address => some (1, [⟨8, 8, address.toNat⟩])
  | .abortLoad => some (2, [])
  | .setRing base size irq => some (3, [⟨8, 8, base.toNat⟩, ⟨16, 4, size.toNat⟩, ⟨20, 1, irq.toNat⟩])
  | .setLine args => some (4, lineFields args)
  | .setPortPolicy port policy failResponse limit =>
    some (5, [⟨4, 1, port.toNat⟩, ⟨5, 1, policy.toNat⟩, ⟨6, 1, failResponse.toNat⟩, ⟨8, 2, limit.toNat⟩])
  | .clearLog source => some (6, [⟨4, 1, source.toNat⟩])
  | .resumePort port => some (7, [⟨4, 1, port.toNat⟩])
  | .releaseGate => some (8, [])
  | .inspectionReset _ => some (9, [])
  | .unknownKind kind => some (kind.toNat, [])
  | .fullReset _ _ _ => none
  | .writeRequest _ _ => none
  | .readRequest _ _ => none
  | .writeBeat _ _ => none
  | .burstOffer => none
  | .segment => none
  | .closing => none
  | .encoderStep _ _ => none
  | .illegalStep => none
  | .boardEdgeTrailing => none
  | .boardEdgeLeading => none
  | .deadTimeEnd => none
  | .arbiterGrant _ _ => none
  | .mailboxShadowWrite _ => none
  | .memoryResponse _ _ _ => none
  | .responseTimerExpiry _ => none
  | .fetchReadIssue => none
  | .ringSlotWrite => none
  | .internalHandover => none
  | .consumerUpdate _ _ _ => none
  | .boardEdgeSample _ => none

/-- The outcomes with which a command is refused (R186). -/
def CommandOutcome.refuses : CommandOutcome → Bool
  | .busy => true
  | .badArgument => true
  | .wrongState => true
  | .unknownKind => true
  | .none => false
  | .done => false
  | .started => false

/-- SET_LINE's arguments are within their ranges (R190, R202). -/
def lineInRange (a : LineArgs) : Prop :=
  1 ≤ a.diverter.toNat ∧ a.diverter.toNat ≤ 2 ^ 30 ∧ 1 ≤ a.window.toNat ∧ a.window.toNat ≤ 2 ^ 20
    ∧ a.deadTime.toNat ≤ 65535 ∧ a.timeout.toNat ≤ 2 ^ 30 ∧ a.direction.toNat ≤ 1 ∧ a.edge.toNat ≤ 1
    ∧ a.report.toNat ≤ 2 ∧ a.holds.toNat < 8 ∧ a.gateMode.toNat ≤ 2

/-- SET_RING's arguments are good (R172): a base that is a multiple of 32, a size that is a power of two from 16 to
65536, a range within the address space that meets neither the mailbox window nor the frame window of a READY or
ACTIVE bank, and an enable of 0 or 1. -/
def Block.RingInRange (b : Block) (base size irq : Nat) : Prop :=
  base % 32 = 0 ∧ (∃ k ≤ 12, size = 16 * 2 ^ k) ∧ base + 32 * size ≤ 2 ^ 40 ∧ irq ≤ 1
    ∧ (⟨base, base + 32 * size - 1⟩ : Range).overlaps b.decoder.window = false
    ∧ ∀ p, b.store.readyProgram = some p ∨ b.store.activeProgram = some p →
      (⟨base, base + 32 * size - 1⟩ : Range).overlaps p.header.window = false

/-- A program has passed every check of R14 to R16. -/
structure Program.Sound (p : Program) : Prop where
  base : p.header.base.toNat % 16 = 0
  width : 1 ≤ p.header.width ∧ p.header.width ≤ 8192
  height : 1 ≤ p.header.height ∧ p.header.height ≤ 32768
  pitch : p.header.pitch % 16 = 0 ∧ p.header.width * 4 ≤ p.header.pitch ∧ p.header.pitch ≤ 65536
  window : p.header.window.hi < 2 ^ 40
  laneCount : 1 ≤ p.header.lanes.length ∧ p.header.lanes.length ≤ 4
  lanes : ∀ l ∈ p.header.lanes, l.first ≤ l.last ∧ l.last < p.header.width
  lanesApart : p.header.lanes.Pairwise fun a b => a.last < b.first
  masters : (p.header.lanes.map (·.master)).Nodup
  recipeCount : p.recipes.length = p.header.recipeCount ∧ 1 ≤ p.recipes.length ∧ p.recipes.length ≤ 64
  jointCount : p.joints.length = p.header.jointCount ∧ 1 ≤ p.joints.length ∧ p.joints.length ≤ 4096
  recipes : ∀ r ∈ p.recipes, r.inRange = true
  order : p.joints.Pairwise fun a b => a.region.y0 ≤ b.region.y0
  regions : ∀ j ∈ p.joints, j.region.x0 ≤ j.region.x1 ∧ j.region.y0 ≤ j.region.y1
    ∧ j.region.x1 < p.header.width ∧ j.region.y1 < p.header.height
    ∧ j.region.x1 - j.region.x0 + 1 ≤ 256 ∧ j.region.y1 - j.region.y0 + 1 ≤ 256
    ∧ (∀ x, j.region.x0 ≤ x → x ≤ j.region.x1 → ∃ l ∈ p.header.lanes, l.first ≤ x ∧ x ≤ l.last)
    ∧ j.recipe < p.recipes.length
  gaps : ∀ j ∈ p.joints, ∀ g, j.gap = some g → g.x0 ≤ g.x1 ∧ g.y0 ≤ g.y1
    ∧ g.x1 < p.header.width ∧ g.y1 < p.header.height ∧ g.x1 - g.x0 + 1 ≤ 64 ∧ g.y1 - g.y0 + 1 ≤ 256
    ∧ (∃ l ∈ p.header.lanes, l.first ≤ g.x0 ∧ g.x1 ≤ l.last) ∧ j.region.y0 ≤ g.y0

/-- What a load holds has passed the checks made so far (R11, R14 to R16), as a program it has as many recipes and
joints as have been validated. -/
structure Load.Sound (l : Load) : Prop where
  bare : l.header = none → l.recipes = [] ∧ l.joints = []
  passed : ∀ h, l.header = some h →
    (h.base.toNat % 16 = 0 ∧ 1 ≤ h.width ∧ h.width ≤ 8192 ∧ 1 ≤ h.height ∧ h.height ≤ 32768
      ∧ h.pitch % 16 = 0 ∧ h.width * 4 ≤ h.pitch ∧ h.pitch ≤ 65536 ∧ h.window.hi < 2 ^ 40
      ∧ 1 ≤ h.lanes.length ∧ h.lanes.length ≤ 4 ∧ (∀ x ∈ h.lanes, x.first ≤ x.last ∧ x.last < h.width)
      ∧ (h.lanes.Pairwise fun a b => a.last < b.first) ∧ (h.lanes.map (·.master)).Nodup
      ∧ 1 ≤ h.recipeCount ∧ h.recipeCount ≤ 64 ∧ 1 ≤ h.jointCount ∧ h.jointCount ≤ 4096)
    ∧ l.recipes.length ≤ h.recipeCount ∧ (l.recipes.length < h.recipeCount → l.joints = [])
    ∧ l.joints.length < h.jointCount ∧ (∀ r ∈ l.recipes, r.inRange = true)
    ∧ (l.joints.Pairwise fun a b => a.region.y0 ≤ b.region.y0)
    ∧ ∀ j ∈ l.joints, checkRegion h j.region j.recipe = true
      ∧ ∀ g, j.gap = some g → checkGap h j.region g = true

/-- The programs and the ring (R5, R13, R17, R172): every READY or ACTIVE program has passed every check; its frame
window meets neither the mailbox window nor the ring; nor does the ring meet the mailbox window; a load in progress
holds only what has passed. -/
structure Block.ProgramsSound (b : Block) : Prop where
  usable : ∀ i p, (b.store.bank i = .ready p ∨ b.store.bank i = .active p) → p.Sound
    ∧ p.header.window.overlaps b.decoder.window = false
    ∧ ∀ r, b.writer.ring = some r → p.header.window.overlaps r.range = false
  ring : ∀ r, b.writer.ring = some r → r.range.overlaps b.decoder.window = false ∧ r.range.hi < 2 ^ 40
  loads : ∀ i l, b.store.bank i = .loading l → l.Sound

/-- The late note after the action of a board changes: only the note of that board, and only DRIVEN (R111). -/
def Line.noteChanged (l : Line) (owner : Serial) (action : GateAction) : Option LateNote :=
  l.lateNote.map fun n => if n.serial = owner ∧ n.action = .driven then { n with action := action } else n

/-- The load of a bank has ended without success: the bank is EMPTY, the record takes the outcome and its index, the
loader waits for no room, and a rewrite is asked for (R9, R12, R13, R21). -/
def Block.loadEnded (b : Block) (i : BankId) (outcome : LoadOutcome) (index : Nat) : Block :=
  { ({ b with master := { b.master with waiters := b.master.waiters.filter (· ≠ .fetch) } } : Block).askRewrite with
    store := { b.store.setBank i .empty with record := ⟨b.store.record.target, some outcome, index⟩ } }

/-- The slot write has ended: none is in progress; a held consumer update is applied and removed, taken when it lies
within one ring of the producer index and otherwise clamped to it with S_CONSUMER_RANGE; RING_IRQ follows (R175 to
R179). -/
def Block.slotWriteEnded (b : Block) (ring : Ring) : Block :=
  let ended := fun (consumer : Counter) => { b with writer := { b.writer with
    slotWrite := none
    heldUpdate := none
    consumer := consumer
    ringIrq := ring.irqOn && decide (b.writer.producer ≠ consumer) } }
  match b.writer.heldUpdate with
  | none => ended b.writer.consumer
  | some u =>
    if (b.writer.producer - u.value).toNat ≤ ring.size then ended u.value
    else (ended b.writer.producer).report ⟨.sConsumerRange, .minor, u.master, u.addr, 0⟩

/-- The turn of a source at a grant: every source before it in the cyclic order capture, system, internal after the last
grantee, which itself comes last, presents no request (R161). -/
def Block.inTurn (b : Block) (src : Source) : Prop :=
  let order := match b.memory.lastGrantee with
    | .capture => [Source.system, .internal, .capture]
    | .system => [Source.internal, .capture, .system]
    | .internal => [Source.capture, .system, .internal]
  ∀ x ∈ order.takeWhile (· ≠ src), b.presents x = none

/-! ### The tables of R201 and R203 -/

/-- A row of a layout table: `size` bytes at `offset` hold this number, its least significant byte first (R198). -/
structure LayoutRow where
  offset : Nat
  size   : Nat
  value  : Nat

/-- The bytes hold what every row of a table says (R198). -/
def holdsRows (bytes : List Byte) (rows : List LayoutRow) : Prop :=
  ∀ r ∈ rows, ∀ k < r.size, bytes[r.offset + k]? = some (BitVec.ofNat 8 (r.value / 256 ^ k))

/-- The log source and the code of an error, as numbers (R201). -/
def ErrorCode.numbers : ErrorCode → Nat × Nat
  | .cAddrParity => (1, 1)
  | .cDataParity => (1, 2)
  | .cLaneRange => (1, 3)
  | .cOrder => (1, 4)
  | .cMailboxForeign => (1, 5)
  | .sAddrParity => (2, 1)
  | .sDataParity => (2, 2)
  | .sConsumerRange => (2, 3)
  | .mPassError => (3, 1)
  | .mOwnError => (3, 2)
  | .mTimeout => (3, 3)
  | .lEncoder => (4, 1)
  | .lFrameTimeout => (4, 2)
  | .lLate => (4, 3)
  | .lQueueFull => (4, 4)

/-- A severity as a number (R201). -/
def Severity.number : Severity → Nat
  | .minor => 1
  | .degraded => 2
  | .fatal => 3

/-- The table of the JOINT record (R201). -/
def JointResult.rows (j : JointResult) : List LayoutRow :=
  let m := j.measurement.getD ⟨0, 0, 0, 0, 0, 0, 0⟩
  let verdict := match j.verdict with
    | .ok => 0
    | .excess => 1
    | .insufficient => 2
    | .nonwet => 3
    | .bridge => 4
    | .unreadable => 5
  let cause := match j.cause with
    | none => 0
    | some .truncated => 1
    | some .damaged => 2
    | some .noValid => 3
    | some .lowValid => 4
    | some .saturated => 5
    | some .openSetFull => 6
    | some .notReached => 7
  let defects := j.defects.excess.toNat + 2 * j.defects.insufficient.toNat + 4 * j.defects.nonwet.toNat
    + 8 * j.defects.bridge.toNat
  let flags := j.order.toNat + 2 * j.incomplete.toNat + 4 * j.advisory.toNat
  let presence := j.measurement.isSome.toNat + 2 * j.bridgedRows.isSome.toNat
  [⟨0, 1, 1⟩, ⟨1, 1, verdict⟩, ⟨2, 1, cause⟩, ⟨3, 1, defects⟩, ⟨4, 1, flags⟩, ⟨5, 1, presence⟩,
    ⟨6, 1, j.bridgedRows.getD 0⟩, ⟨7, 1, 0⟩, ⟨8, 2, j.frame.toNat⟩, ⟨10, 2, j.index⟩, ⟨12, 2, j.label.toNat⟩,
    ⟨14, 2, m.qValid⟩, ⟨16, 2, m.qSat⟩, ⟨18, 2, m.qFlat⟩, ⟨20, 2, m.qSlope⟩, ⟨22, 2, m.qSteep⟩, ⟨24, 2, m.qDark⟩,
    ⟨26, 2, m.bm⟩, ⟨28, 4, 0⟩]

/-- The table of the BOARD record (R201). -/
def BoardResult.rows (r : BoardResult) : List LayoutRow :=
  let verdict := match r.verdict with
    | .pass => 0
    | .reject => 1
  let flags := r.late.toNat + 2 * r.notImaged.toNat + 4 * r.unmatched.toNat + 8 * r.truncated.toNat
    + 16 * r.timeout.toNat
  let action := match r.action with
    | .none => 0
    | .driven => 1
    | .cut => 2
    | .forced => 3
    | .off => 4
  [⟨0, 1, 2⟩, ⟨1, 1, verdict⟩, ⟨2, 1, flags⟩, ⟨3, 1, action⟩, ⟨4, 2, r.frame.toNat⟩, ⟨6, 2, r.serial.toNat⟩,
    ⟨8, 4, r.programId.toNat⟩, ⟨12, 2, r.counts.ok⟩, ⟨14, 2, r.counts.excess⟩, ⟨16, 2, r.counts.insufficient⟩,
    ⟨18, 2, r.counts.nonwet⟩, ⟨20, 2, r.counts.bridge⟩, ⟨22, 2, r.counts.unreadable⟩, ⟨24, 2, r.lost⟩, ⟨26, 6, 0⟩]

/-- The table of the NOTICE record (R201). -/
def NoticeResult.rows (r : NoticeResult) : List LayoutRow :=
  [⟨0, 1, 3⟩, ⟨1, 1, r.error.code.numbers.1⟩, ⟨2, 1, r.error.code.numbers.2⟩, ⟨3, 1, r.error.severity.number⟩,
    ⟨4, 1, r.replacement.toNat + 2 * r.overflow.toNat⟩, ⟨5, 1, 0⟩, ⟨6, 2, r.error.serial.toNat⟩,
    ⟨8, 8, r.error.addr.toNat⟩, ⟨16, 1, r.error.master.toNat⟩, ⟨17, 15, 0⟩]

/-- The table of a record, by its kind (R201). -/
def RingRecord.rows : RingRecord → List LayoutRow
  | .joint r => r.rows
  | .board r => r.rows
  | .notice r => r.rows

/-- The rows of a log entry, from its offset on (R203). -/
def ErrorLog.rows (l : ErrorLog) (offset : Nat) : List LayoutRow :=
  match l.held with
  | none => [⟨offset, 16, 0⟩]
  | some e =>
    [⟨offset, 1, e.code.numbers.2⟩, ⟨offset + 1, 1, e.severity.number⟩, ⟨offset + 2, 1, l.overflow.toNat⟩,
      ⟨offset + 3, 1, e.master.toNat⟩, ⟨offset + 4, 2, e.serial.toNat⟩, ⟨offset + 6, 2, 0⟩,
      ⟨offset + 8, 8, e.addr.toNat⟩]

/-- The rows of a port, from its offset on (R203). -/
def Port.rows (p : Port) (offset : Nat) : List LayoutRow :=
  let containment := match p.containment with
    | .opened => 0
    | .contained => 1
  let policy := match p.policy with
    | .mark => 0
    | .contain => 1
  let failResponse := match p.failResponse with
    | .allOnes => 0
    | .error => 1
  [⟨offset, 1, containment⟩, ⟨offset + 1, 1, policy⟩, ⟨offset + 2, 1, failResponse⟩, ⟨offset + 3, 1, 0⟩]

/-- The state of a bank as a number, and the program ID shown for it, 0 while it is EMPTY or LOADING (R5, R203). -/
def Bank.shown : Bank → Nat × Nat
  | .empty => (0, 0)
  | .loading _ => (1, 0)
  | .ready p => (2, p.header.programId.toNat)
  | .active p => (3, p.header.programId.toNat)

/-- The table of the status block (R203). -/
def Block.statusRows (b : Block) : List LayoutRow :=
  let cause := match b.decoder.resetCause with
    | .power => 1
    | .pin => 2
    | .command => 3
  let outcome := match b.decoder.lastOutcome with
    | .none => 0
    | .done => 1
    | .started => 2
    | .busy => 3
    | .badArgument => 4
    | .wrongState => 5
    | .unknownKind => 6
  let target := match b.store.record.target with
    | some .bank0 => 0
    | some .bank1 => 1
    | none => 0xFF
  let loadOutcome := match b.store.record.outcome with
    | none => 0
    | some .loaded => 1
    | some .format => 2
    | some .geometry => 3
    | some .lanes => 4
    | some .recipe => 5
    | some .jointOrder => 6
    | some .jointRange => 7
    | some .gap => 8
    | some .windowOverlap => 9
    | some .fetchError => 10
    | some .aborted => 11
  let frame := match b.tracker.state with
    | .idle => 0
    | .opened => 1
    | .closing => 2
  let gate := match b.line.gateMode with
    | .off => 0
    | .active => 1
    | .held => 2
  let ring := match b.writer.ring with
    | some r => (r.base.toNat, r.size, r.irqOn.toNat)
    | none => (0, 0, 0)
  [⟨0x00, 4, b.blockSequence.toNat⟩, ⟨0x04, 1, cause⟩, ⟨0x05, 1, b.decoder.resetPending.toNat⟩, ⟨0x06, 1, outcome⟩,
    ⟨0x07, 1, 0⟩, ⟨0x08, 4, b.decoder.commandCount.toNat⟩, ⟨0x0C, 4, b.decoder.lastKind.toNat⟩,
    ⟨0x10, 1, b.store.bank0.shown.1⟩, ⟨0x11, 1, b.store.bank1.shown.1⟩, ⟨0x12, 1, target⟩, ⟨0x13, 1, loadOutcome⟩,
    ⟨0x14, 2, b.store.record.index⟩, ⟨0x16, 2, 0⟩, ⟨0x18, 4, b.store.bank0.shown.2⟩, ⟨0x1C, 4, b.store.bank1.shown.2⟩,
    ⟨0x20, 1, frame⟩, ⟨0x21, 1, gate⟩, ⟨0x22, 1, b.line.queue.length⟩, ⟨0x23, 1, 0⟩, ⟨0x24, 2, b.tracker.number.toNat⟩,
    ⟨0x26, 2, b.line.untracked⟩, ⟨0x28, 4, b.line.position.toNat⟩]
    ++ b.capture.rows 0x2C ++ b.system.rows 0x30
    ++ [⟨0x34, 2, b.memory.responseLimit⟩, ⟨0x36, 2, 0⟩, ⟨0x38, 4, b.writer.producer.toNat⟩, ⟨0x3C, 4, b.writer.drops⟩,
      ⟨0x40, 8, ring.1⟩, ⟨0x48, 4, ring.2.1⟩, ⟨0x4C, 1, ring.2.2⟩, ⟨0x4D, 3, 0⟩]
    ++ b.logs.capture.rows 0x50 ++ b.logs.system.rows 0x60 ++ b.logs.memory.rows 0x70 ++ b.logs.line.rows 0x80
    ++ [⟨0x90, 112, 0⟩]

/-! ### A command by the bytes of the command slot -/

/-- The command that the kind word and the argument bytes of a command slot shadow name (R185, R202). -/
def slotCommand (slot : Vector Byte 64) (segmentInHand : Bool) : Instr :=
  let field := fun (offset size : Nat) => fieldAt slot.toList offset size
  let word := fun (offset : Nat) => BitVec.ofNat 32 (field offset 4)
  let byte := fun (offset : Nat) => BitVec.ofNat 8 (field offset 1)
  match field 0 4 with
  | 1 => .loadProgram (BitVec.ofNat 64 (field 8 8))
  | 2 => .abortLoad
  | 3 => .setRing (BitVec.ofNat 64 (field 8 8)) (word 16) (byte 20)
  | 4 => .setLine ⟨word 4, word 8, word 12, word 16, byte 20, byte 21, byte 22, byte 23, byte 24⟩
  | 5 => .setPortPolicy (byte 4) (byte 5) (byte 6) (BitVec.ofNat 16 (field 8 2))
  | 6 => .clearLog (byte 4)
  | 7 => .resumePort (byte 4)
  | 8 => .releaseGate
  | 9 => .inspectionReset segmentInHand
  | _ => .unknownKind (word 0)

/-- Two requests at a port are of one kind for R149: same master ID, same direction. -/
def OpenRequest.sameKind (q : OpenRequest) (master : MasterId) (dir : Direction) : Bool :=
  q.master == master && q.direction == dir

end Sys2Proof.Machine
end

