-- ==== Sys2Proof/Certificates/Slice0/Obligations.lean ====
section
/-! DEFINITION. The statements for the provers. A statement names the rules of the spec that it formalises; a clause
that rests on a choice of the model names its log entry. -/

open Sys2Proof Sys2Proof.Machine

/-! ### Step and reset -/

/-- A step takes the command at the front of the queue and runs it on the rest. On an empty queue one microsecond
passes: the response timers and a DEAD interval count down, and nothing else changes (the model's choice, log entry 1). -/
def Obligations.StepRunsTheFrontCommand : Prop :=
    (∀ (c : Instr) (rest : List Instr) (s : State), s.pending = c :: rest →
      step s = exec c { s with pending := rest })
    ∧ (∀ s : State, s.pending = [] →
      ∃ t, step s = .next t ∧ t.pending = []
        ∧ t.block = { s.block with
            memory := { s.block.memory with
              table := s.block.memory.table.map fun e => { e with timer := e.timer - 1 } }
            line := { s.block.line with driver :=
              match s.block.line.driver with
              | .dead line left pending => .dead line (left - 1) pending
              | d => d } })

/-- FULL_RESET gives every block its full reset values, whatever the state before (R20, R43, R78, R95, R121, R123,
R133, R140, R165, R166, R167, R182, R196, R197). The gate driver follows R121; the wire histories are kept and the
numbering restarts (log entries 13, 14), at a POWER reset in mid-run too (log entry 39); the status rewrite that the reset asks for is queued (log entry 4). -/
def Obligations.FullResetRestoresEveryBlock : Prop :=
  ∀ (kind : FullResetKind) (mbxSel : BitVec 3) (imgContain : Bool) (s : State),
    exec (.fullReset kind mbxSel imgContain) s = .next (s.withBlock
      { capture := ⟨[], [], [], [], .opened, if imgContain then .contain else .mark, .allOnes,
          s.block.capture.given⟩
        system := ⟨[], [], [], [], .opened, .mark, .allOnes, s.block.system.given⟩
        memory := ⟨[], 2000, .internal, s.block.memory.sent⟩
        master := ⟨[⟨0, .statusBlock⟩], []⟩
        decoder :=
          { windowBase := BitVec.ofNat 40 (0x7FF0000000 + mbxSel.toNat * 0x10000)
            slot := Vector.replicate 64 0
            consumerWord := Vector.replicate 4 0
            commandCount := 0
            lastKind := 0
            lastOutcome := .none
            resetPending := false
            resetCause := match kind with
              | .power => .power
              | .pin => .pin }
        store := ⟨.empty, .empty, ⟨none, none, 0⟩⟩
        tracker := ⟨.idle, 0, none, 0, none, [], none⟩
        joints := ⟨[], 0⟩
        tally := ⟨⟨0, 0, 0, 0, 0, 0⟩, false, 0⟩
        line :=
          { position := 0
            lastSample := none
            settled := false
            runCount := 0
            serial := 0
            untracked := 0
            queue := []
            lateNote := none
            gateMode := .off
            driver := match s.block.line.driver with
              | .idle => .idle
              | .driving k _ _ =>
                if s.block.line.config.deadTime = 0 then .idle else .dead k s.block.line.config.deadTime none
              | .dead k left _ => .dead k left none
            config := ⟨false, 0, 0, 0, 0, .normal, .rising, .all, false, false, false⟩ }
        writer := ⟨[], none, 0, 0, none, none, 0, false⟩
        logs := ⟨⟨none, false⟩, ⟨none, false⟩, ⟨none, false⟩, ⟨none, false⟩⟩
        blockSequence := 0
        stamp := 1 })

/-! ### Upstream ports -/

/-- A write request with good parity takes its place in a buffer with room: TAKING, under the policy in force; at a
CONTAINED port it will be discarded unless the mailbox exemption covers it. A read request with good parity at an OPEN
port with room joins the end of the read list. A port without room leaves the request with the partner (log entry 12).
Nothing else changes (R133, R135, R148, R153; log entry 16). -/
def Obligations.RequestsTakeTheirPlaceOrWait : Prop :=
    (∀ (s : State) (i : PortId) (r : Request),
      (s.block.port i).buffer.length < 8 → requestParityOk r .write = true →
      exec (.writeRequest i r) s = .next (s.withBlock
        { s.block.setPort i { s.block.port i with
            buffer := (s.block.port i).buffer ++
              [{ stamp := s.block.stamp, master := r.master, addr := r.addr, beats := r.beats,
                 policy := (s.block.port i).policy, taken := [], state := .taking, inspected := false,
                 doomed := decide ((s.block.port i).containment = .contained) &&
                   !(decide (i = .system) && (byteRange r.addr r.beats).within s.block.decoder.window) }]
            unanswered := (s.block.port i).unanswered ++ [⟨s.block.stamp, r.master, .write, false, none⟩] }
          with stamp := s.block.stamp + 1 }))
    ∧ (∀ (s : State) (i : PortId) (r : Request),
      (s.block.port i).readsHeld < 16 → requestParityOk r .read = true →
      (s.block.port i).containment = .opened →
      exec (.readRequest i r) s = .next (s.withBlock
        { s.block.setPort i { s.block.port i with
            reads := (s.block.port i).reads ++
              [⟨s.block.stamp, r.master, r.addr, r.beats, (s.block.port i).failResponse⟩]
            unanswered := (s.block.port i).unanswered ++ [⟨s.block.stamp, r.master, .read, true, none⟩] }
          with stamp := s.block.stamp + 1 }))
    ∧ (∀ (s : State) (i : PortId) (r : Request),
      (8 ≤ (s.block.port i).buffer.length → exec (.writeRequest i r) s = .next s)
      ∧ (16 ≤ (s.block.port i).readsHeld → exec (.readRequest i r) s = .next s))

/-- A CONTAINED port answers a read itself, without sending it to memory: OKAY with 0xFF in every byte under
ALL_ONES, ERROR with zeros under ERROR. The answer is decided at once, and given in the order of
AnswersKeepTheRequestOrder: when no earlier read of the same master ID is open it is given at once and the read keeps
no place; behind an earlier read of that master ID that is undecided it waits with its data, the read holding its
place (R136, R148, R149). -/
def Obligations.ContainedReadGetsTheFailResponse : Prop :=
  ∀ (s : State) (i : PortId) (r : Request),
    (s.block.port i).readsHeld < 16 → requestParityOk r .read = true →
    (s.block.port i).containment = .contained →
    let response := match (s.block.port i).failResponse with
      | .allOnes => Response.okay
      | .error => .error
    let data := match (s.block.port i).failResponse with
      | .allOnes => List.replicate (beatCount r.beats) (BitVec.allOnes 128)
      | .error => List.replicate (beatCount r.beats) 0
    let becomes := fun (p : Port) => exec (.readRequest i r) s = .next (s.withBlock
      { s.block.setPort i p with stamp := s.block.stamp + 1 })
    becomes (({ s.block.port i with
      unanswered := (s.block.port i).unanswered ++ [⟨s.block.stamp, r.master, .read, true, none⟩] } : Port).answer
        s.block.stamp response data)
    ∧ ((∀ q ∈ (s.block.port i).unanswered, q.stamp ≠ s.block.stamp ∧ q.sameKind r.master .read = false) →
      becomes { s.block.port i with
        given := (s.block.port i).given ++ [⟨r.master, .read, response, data⟩] })
    ∧ ∀ (before after : List OpenRequest) (q : OpenRequest),
      (s.block.port i).unanswered = before ++ q :: after →
      (∀ x ∈ (s.block.port i).unanswered, x.stamp ≠ s.block.stamp) →
      (∀ x ∈ before, x.sameKind r.master .read = false) → q.sameKind r.master .read = true → q.decided = none →
      becomes { s.block.port i with
        unanswered := (s.block.port i).unanswered ++
          [⟨s.block.stamp, r.master, .read, true, some ⟨r.master, .read, response, data⟩⟩] }

/-- A request that fails its parity check is not buffered and not listed; the failure is reported FATAL with the
fields as they arrived. The check is odd parity over master ID, address, beat count and direction; what the last two
add to it is open (log entry 5). A read is decided ERROR at once, with data the manual leaves open (log entry 6): the
answer is given when no earlier read of its master ID is open, and waits, holding no place, behind one that is
undecided. The beats of such a write, while it is the oldest write that lacks beats, are discarded, whatever the
buffer holds, and after the last one it is answered ERROR (log entry 15). A beat that no write waits for is dropped,
and so is a beat of a write that a full reset has lost (R129, R146, R149, R165; log entry 44). -/
def Obligations.RequestParityFailureIsReported : Prop :=
    (∀ (s : State) (i : PortId) (r : Request),
      ((s.block.port i).buffer.length < 8 → requestParityOk r .write = false →
        exec (.writeRequest i r) s = .next (s.withBlock
          (({ s.block.setPort i { s.block.port i with
              failing := (s.block.port i).failing ++ [⟨s.block.stamp, beatCount r.beats⟩]
              unanswered := (s.block.port i).unanswered ++ [⟨s.block.stamp, r.master, .write, false, none⟩] }
            with stamp := s.block.stamp + 1 } : Block).report
              ⟨match i with
                | .capture => .cAddrParity
                | .system => .sAddrParity, .fatal, r.master, r.addr, 0⟩)))
      ∧ ((s.block.port i).readsHeld < 16 → requestParityOk r .read = false →
        ∃ data : List Beat, data.length = beatCount r.beats ∧
          let becomes := fun (p : Port) => exec (.readRequest i r) s = .next (s.withBlock
            (({ s.block.setPort i p with stamp := s.block.stamp + 1 } : Block).report
              ⟨match i with
                | .capture => .cAddrParity
                | .system => .sAddrParity, .fatal, r.master, r.addr, 0⟩))
          becomes (({ s.block.port i with
            unanswered := (s.block.port i).unanswered ++ [⟨s.block.stamp, r.master, .read, false, none⟩] } : Port).answer
              s.block.stamp .error data)
          ∧ ((∀ q ∈ (s.block.port i).unanswered, q.stamp ≠ s.block.stamp ∧ q.sameKind r.master .read = false) →
            becomes { s.block.port i with
              given := (s.block.port i).given ++ [⟨r.master, .read, .error, data⟩] })
          ∧ ∀ (before after : List OpenRequest) (q : OpenRequest),
            (s.block.port i).unanswered = before ++ q :: after →
            (∀ x ∈ (s.block.port i).unanswered, x.stamp ≠ s.block.stamp) →
            (∀ x ∈ before, x.sameKind r.master .read = false) → q.sameKind r.master .read = true →
            q.decided = none →
            becomes { s.block.port i with
              unanswered := (s.block.port i).unanswered ++
                [⟨s.block.stamp, r.master, .read, false, some ⟨r.master, .read, .error, data⟩⟩] }))
    ∧ (∀ (r : Request) (dir : Direction),
      let ones := (List.range 8).countP (fun k => r.master.getLsbD k) + (List.range 40).countP (fun k => r.addr.getLsbD k)
        + (Config.controlParity r.beats dir).toNat + r.parity.toNat
      requestParityOk r dir = decide (ones % 2 = 1))
    ∧ (∀ (s : State) (i : PortId) (beat : WriteBeat),
      (beat.ofLostWrite = true → exec (.writeBeat i beat) s = .next s)
      ∧ ((s.block.port i).failing = [] → (∀ v ∈ (s.block.port i).buffer, v.state ≠ .taking) →
        exec (.writeBeat i beat) s = .next s)
      ∧ ∀ (f : FailedWrite) (later : List FailedWrite), beat.ofLostWrite = false →
        (s.block.port i).failing = f :: later → (∀ g ∈ later, g.stamp ≠ f.stamp) →
        (∀ v ∈ (s.block.port i).buffer, v.state = .taking → f.stamp < v.stamp) →
        (2 ≤ f.left → exec (.writeBeat i beat) s = .next (s.withBlock
          (s.block.setPort i { s.block.port i with failing := { f with left := f.left - 1 } :: later })))
        ∧ (f.left = 1 → exec (.writeBeat i beat) s = .next (s.withBlock
          (s.block.setPort i (({ s.block.port i with failing := later } : Port).answer f.stamp .error []))))
        ∧ ∀ (before after : List OpenRequest) (q : OpenRequest),
          (s.block.port i).unanswered = before ++ q :: after → ((s.block.port i).unanswered.map (·.stamp)).Nodup →
          q.stamp = f.stamp → q.decided = none →
          (∀ r ∈ before ++ after, r.sameKind q.master q.direction = false) → f.left = 1 →
          exec (.writeBeat i beat) s = .next (s.withBlock
            (s.block.setPort i { s.block.port i with
              failing := later
              unanswered := before ++ after
              given := (s.block.port i).given ++ [⟨q.master, q.direction, .error, []⟩] })))

/-- A beat belongs to the oldest write that still lacks beats, those whose request parity failed among them, wherever
it stands in the buffer; it is bad when the parity bit of some byte is wrong, odd parity over the byte. While the
write still lacks beats nothing else changes. The last beat of a write without bad beats makes it WAITING, and READY
at the head of the system port's buffer (R130, R146, R150). A beat of a write that a full reset has lost is none of
these (log entry 44). -/
def Obligations.BeatJoinsTheOldestWrite : Prop :=
    (∀ (s : State) (i : PortId) (beat : WriteBeat) (older later : List BufferedWrite) (w : BufferedWrite),
      beat.ofLostWrite = false →
      (∀ f ∈ (s.block.port i).failing, w.stamp < f.stamp) → (s.block.port i).buffer = older ++ w :: later →
      ((s.block.port i).buffer.map (·.stamp)).Nodup →
      (∀ v ∈ older, v.state ≠ .taking) → w.state = .taking → w.taken.length + 1 < beatCount w.beats →
      exec (.writeBeat i beat) s = .next (s.withBlock
        (s.block.setPort i { s.block.port i with
          buffer := older ++ { w with taken := w.taken ++
            [⟨beat.data, beat.strobes, decide (beat.parity ≠ beatParity beat.data)⟩] } :: later })))
    ∧ (∀ (s : State) (i : PortId) (beat : WriteBeat) (older later : List BufferedWrite) (w : BufferedWrite),
      beat.ofLostWrite = false →
      (∀ f ∈ (s.block.port i).failing, w.stamp < f.stamp) → (s.block.port i).buffer = older ++ w :: later →
      ((s.block.port i).buffer.map (·.stamp)).Nodup →
      (∀ v ∈ older, v.state ≠ .taking) → (i = .system → ∀ v more, older = v :: more → v.state ≠ .waiting) →
      w.state = .taking → w.doomed = false →
      w.taken.length + 1 = beatCount w.beats → (∀ t ∈ w.taken, t.bad = false) →
      beat.parity = beatParity beat.data →
      exec (.writeBeat i beat) s = .next (s.withBlock
        (s.block.setPort i { s.block.port i with
          buffer := older ++ { w with
            taken := w.taken ++ [⟨beat.data, beat.strobes, false⟩]
            state := if i = .system ∧ older = [] then .ready else .waiting } :: later })))
    ∧ ∀ (data : Beat) (k : Nat), k < 16 →
      (beatParity data).getLsbD k
        = decide (((List.range 8).countP fun bit => data.getLsbD (8 * k + bit)) % 2 = 0)

/-- The last beat of the oldest write that lacks beats, wherever it stands in the buffer. With a bad beat, the write
not to be discarded by containment: under MARK it stays in its place and the failure is reported DEGRADED; under
CONTAIN it is discarded whole, decided OKAY and reported FATAL. A write to be discarded by containment is discarded
and decided OKAY, under either policy; with a bad beat its parity failure is still reported, at the severity of its
policy. The writes before and behind it keep their order, and at the system port a whole write that becomes the head
is READY. The answer is given at once when no other request of its master ID and direction is open (R130, R131, R134,
R135, R146, R149, R150; log entry 16). -/
def Obligations.BadWriteFollowsItsPolicy : Prop :=
  ∀ (s : State) (i : PortId) (beat : WriteBeat) (older later : List BufferedWrite) (w : BufferedWrite),
    beat.ofLostWrite = false → (∀ f ∈ (s.block.port i).failing, w.stamp < f.stamp) →
    (s.block.port i).buffer = older ++ w :: later → ((s.block.port i).buffer.map (·.stamp)).Nodup →
    (∀ v ∈ older, v.state ≠ .taking) → (i = .system → ∀ v more, older = v :: more → v.state ≠ .waiting) →
    w.state = .taking → w.taken.length + 1 = beatCount w.beats →
    let bad := (∃ t ∈ w.taken, t.bad = true) ∨ beat.parity ≠ beatParity beat.data
    let failure := fun (severity : Severity) =>
      (⟨match i with
        | .capture => .cDataParity
        | .system => .sDataParity, severity, w.master, w.addr, 0⟩ : LoggedError)
    let without : Port := { s.block.port i with
      buffer := match i, older, later with
        | .system, [], v :: more => (if v.state = .waiting then { v with state := .ready } else v) :: more
        | _, _, _ => older ++ later }
    let discarded := s.block.setPort i (without.answer w.stamp .okay [])
    (w.doomed = false → bad → w.policy = .mark →
      exec (.writeBeat i beat) s = .next (s.withBlock
        ((s.block.setPort i { s.block.port i with
          buffer := older ++ { w with
            taken := w.taken ++ [⟨beat.data, beat.strobes, decide (beat.parity ≠ beatParity beat.data)⟩]
            state := if i = .system ∧ older = [] then .ready else .waiting } :: later }).report
              (failure .degraded))))
    ∧ (w.doomed = false → bad → w.policy = .contain →
      exec (.writeBeat i beat) s = .next (s.withBlock (discarded.report (failure .fatal))))
    ∧ (w.doomed = true →
      (¬ bad → exec (.writeBeat i beat) s = .next (s.withBlock discarded))
      ∧ (bad → w.policy = .mark →
        exec (.writeBeat i beat) s = .next (s.withBlock (discarded.report (failure .degraded))))
      ∧ (bad → w.policy = .contain →
        exec (.writeBeat i beat) s = .next (s.withBlock (discarded.report (failure .fatal)))))
    ∧ ∀ (before after : List OpenRequest) (q : OpenRequest),
      (s.block.port i).unanswered = before ++ q :: after → ((s.block.port i).unanswered.map (·.stamp)).Nodup →
      q.stamp = w.stamp → q.decided = none → (∀ r ∈ before ++ after, r.sameKind q.master q.direction = false) →
      without.answer w.stamp .okay [] = { without with
        unanswered := before ++ after
        given := (s.block.port i).given ++ [⟨q.master, q.direction, .okay, []⟩] }

/-- Entry into CONTAINED. The port keeps, of its writes, those still taking beats, which will be discarded, and the
one answered Inspect; it lists no read; it asks for a status rewrite. Every write it discards is answered OKAY and
then every read not yet sent with the fail response under which it was taken, OKAY with 0xFF in every byte or ERROR
with zeros; where no other request is open at the port, all these answers are given at once. The capture port's entry
closes an OPEN frame TRUNCATED and, with the containment trigger enabled, sets the gate mode HELD; the system port's
changes neither frame nor gate; a port already CONTAINED is unchanged (R134, R136, R143, R144, R149; log entries 16,
33, 35). -/
def Obligations.ContainmentStopsThePort : Prop :=
  (∀ (b : Block) (i : PortId),
    ((b.port i).containment = .contained → b.containPort i = b)
    ∧ ((b.port i).containment = .opened →
      let kept := ((b.port i).buffer.filter fun w => decide (w.state = .taking) || w.inspected).map
        (fun w => if w.state = .taking then { w with doomed := true } else w)
      let gone := (b.port i).buffer.filter fun w => !(decide (w.state = .taking) || w.inspected)
      let failed := fun (r : ListedRead) => match r.failResponse with
        | .allOnes => (Response.okay, List.replicate (beatCount r.beats) (BitVec.allOnes 128))
        | .error => (Response.error, List.replicate (beatCount r.beats) 0)
      (b.containPort i).port i = (b.port i).reads.foldl (fun p r => p.answer r.stamp (failed r).1 (failed r).2)
        (gone.foldl (fun p w => p.answer w.stamp .okay [])
          { b.port i with buffer := kept, reads := [], containment := .contained })
      ∧ ((b.port i).unanswered = gone.map (fun w => ⟨w.stamp, w.master, .write, false, none⟩)
            ++ (b.port i).reads.map (fun r => ⟨r.stamp, r.master, .read, true, none⟩) →
          ((b.port i).unanswered.map (·.stamp)).Nodup →
          (b.containPort i).port i = { b.port i with
            buffer := kept
            reads := []
            containment := .contained
            unanswered := []
            given := (b.port i).given ++ gone.map (fun w => ⟨w.master, .write, .okay, []⟩)
              ++ (b.port i).reads.map (fun r => ⟨r.master, .read, (failed r).1, (failed r).2⟩) })
      ∧ (b.containPort i).askRewrite = b.containPort i))
  ∧ ∀ b : Block,
    (b.capture.containment = .opened →
      (b.containPort .capture).system = b.system
      ∧ (b.tracker.state = .opened →
          (b.containPort .capture).tracker = { b.tracker with state := .closing, closeKind := some .truncated })
      ∧ (b.tracker.state ≠ .opened → (b.containPort .capture).tracker = b.tracker)
      ∧ (b.line.config.holdOnContain = true → (b.containPort .capture).line.gateMode = .held)
      ∧ (b.line.config.holdOnContain = false → (b.containPort .capture).line = b.line))
    ∧ (b.containPort .system).capture = b.capture ∧ (b.containPort .system).tracker = b.tracker
    ∧ (b.containPort .system).line = b.line

/-- A decided answer is given at once when no earlier request of the same master ID and direction is open and no
later one is decided; otherwise it waits while an earlier one is undecided. In every case the decided answers of that
kind are given in the order of the requests, up to the first request of the kind that is undecided; that request and
all behind it stay as they are, and so do the requests of other kinds before it (R149). -/
def Obligations.AnswersKeepTheRequestOrder : Prop :=
  ∀ (p : Port) (before after : List OpenRequest) (q : OpenRequest) (resp : Response) (data : List Beat),
    p.unanswered = before ++ q :: after → (p.unanswered.map (·.stamp)).Nodup → q.decided = none →
    let marked := before ++ { q with decided := some ⟨q.master, q.direction, resp, data⟩ } :: after
    ((∀ r ∈ before, r.sameKind q.master q.direction = false) →
      (∀ r ∈ after, r.sameKind q.master q.direction = true → r.decided = none) →
      p.answer q.stamp resp data =
        { p with unanswered := before ++ after, given := p.given ++ [⟨q.master, q.direction, resp, data⟩] })
    ∧ ((∃ r ∈ before, r.sameKind q.master q.direction = true ∧ r.decided = none) →
      (∀ r ∈ before, r.sameKind q.master q.direction = true → r.decided = none) →
      p.answer q.stamp resp data = { p with unanswered := marked })
    ∧ ∀ run rest : List OpenRequest, marked = run ++ rest →
      (∀ r ∈ run, r.sameKind q.master q.direction = true → r.decided ≠ none) →
      (rest = [] ∨ ∃ r more, rest = r :: more ∧ r.sameKind q.master q.direction = true ∧ r.decided = none) →
      p.answer q.stamp resp data =
        { p with
          unanswered := (run.filter fun r => !r.sameKind q.master q.direction) ++ rest
          given := p.given ++ (run.filter (·.sameKind q.master q.direction)).filterMap (·.decided) }

/-! ### Frame tracker, joints and boards -/

/-- The head write of the OPEN capture port, with no burst in progress. A whole write not yet answered is offered,
and a HELD one only once the frame is IDLE. It passes and is READY when it is inspectable neither against the program
its frame state looks to, the ACTIVE one while OPEN, the candidate in IDLE, nor in CLOSING against either.
Inspectable while OPEN it is READY, and its copy is the burst in progress; in CLOSING it is HELD; in IDLE it opens a
frame: a READY bank becomes ACTIVE and the one that was ACTIVE EMPTY, without a READY bank the ACTIVE one stays; the
frame number goes up by 1, every lane starts at row 0 with no row closed, the tally is cleared, the position noted,
and the oldest AWAITING_IMAGE board bound, or, without one, the frame is UNMATCHED. The candidate is the READY
program, else the ACTIVE one. A write is inspectable against a program when its address lies in the frame window and
its master ID is a lane's, the burst's lane. The burst has a pixel for every four bytes of its beats, at the row and
column of its address, bytes below the write's address with their strobes clear; padding and rows beyond the frame
are dropped; a column outside the lane counts as out of lane unless its four strobes are clear; the rest of each row,
in address order, is a segment. It is damaged when a beat is bad (R18, R23 to R29, R34 to R36, R42, R92, R150). -/
def Obligations.OfferedWriteIsAnsweredByFrameState : Prop :=
    (∀ (s : State) (w : BufferedWrite) (rest : List BufferedWrite), s.block.capture.buffer = w :: rest →
      (s.block.tracker.burst ≠ none ∨ s.block.capture.containment = .contained
          ∨ (w.state = .held ∧ s.block.tracker.state ≠ .idle) ∨ w.state = .taking ∨ w.state = .ready →
        exec .burstOffer s = .next s)
      ∧ (s.block.tracker.burst = none → s.block.capture.containment = .opened →
        (w.state = .waiting ∨ (w.state = .held ∧ s.block.tracker.state = .idle)) →
        let answered := fun (state : WriteState) (inspected : Bool) =>
          { s.block.capture with buffer := { w with state := state, inspected := inspected } :: rest }
        let free := fun (p : Option Program) => ∀ q, p = some q → q.header.inspectable w = none
        let passes := exec .burstOffer s = .next (s.withBlock { s.block with capture := answered .ready false })
        (s.block.tracker.state = .opened → free s.block.store.activeProgram → passes)
        ∧ (s.block.tracker.state = .idle → free s.block.store.candidate → passes)
        ∧ (s.block.tracker.state = .closing → free s.block.store.activeProgram → free s.block.store.candidate →
          passes)
        ∧ ∀ (p : Program) (lane : Nat), p.header.inspectable w = some lane →
          (s.block.tracker.state = .opened → s.block.store.activeProgram = some p →
            exec .burstOffer s = .next (s.withBlock { s.block with
              capture := answered .ready true
              tracker := { s.block.tracker with burst := some (makeBurst p.header lane w) } }))
          ∧ (s.block.tracker.state = .closing →
            s.block.store.activeProgram = some p ∨ s.block.store.candidate = some p →
            exec .burstOffer s = .next (s.withBlock { s.block with capture := answered .held false }))))
    ∧ (∀ (s : State) (w : BufferedWrite) (rest : List BufferedWrite) (p : Program) (lane : Nat) (i : BankId)
      (store : ProgramStore) (queue : List Board) (binding : Option Serial),
      s.block.tracker.burst = none → s.block.capture.buffer = w :: rest →
      s.block.capture.containment = .opened → (w.state = .waiting ∨ w.state = .held) →
      s.block.tracker.state = .idle → p.header.inspectable w = some lane →
      (s.block.store.bank i = .ready p ∧ (s.block.store.bank i.other).load? = none
          ∧ (s.block.store.bank i.other).ready? = none
          ∧ store = (s.block.store.setBank i.other .empty).setBank i (.active p))
        ∨ (s.block.store.bank i = .active p ∧ (s.block.store.bank i.other).ready? = none
          ∧ (s.block.store.bank i.other).active? = none ∧ store = s.block.store) →
      (∃ before board after, s.block.line.queue = before ++ board :: after
          ∧ (∀ x ∈ before, x.state ≠ .awaitingImage) ∧ board.state = .awaitingImage
          ∧ queue = before ++ { board with state := .imaging (s.block.tracker.number + 1) } :: after
          ∧ binding = some board.serial)
        ∨ ((∀ x ∈ s.block.line.queue, x.state ≠ .awaitingImage) ∧ queue = s.block.line.queue ∧ binding = none) →
      exec .burstOffer s = .next (s.withBlock { s.block.askRewrite with
        capture := { s.block.capture with buffer := { w with state := .ready, inspected := true } :: rest }
        store := store
        tracker :=
          { state := .opened
            number := s.block.tracker.number + 1
            closeKind := none
            opening := s.block.line.position
            binding := binding
            progress := p.header.lanes.map fun l => ⟨0, l.first, -1⟩
            burst := some (makeBurst p.header lane w) }
        joints := { s.block.joints with pointer := 0 }
        tally := ⟨⟨0, 0, 0, 0, 0, 0⟩, false, 0⟩
        line := { s.block.line with queue := queue } }))
    ∧ (∀ store : ProgramStore,
      ((∀ i, (store.bank i).active? = none) → store.activeProgram = none)
      ∧ (∀ i p, store.bank i = .active p → (store.bank i.other).active? = none → store.activeProgram = some p)
      ∧ ((∀ i, (store.bank i).ready? = none) → store.candidate = store.activeProgram)
      ∧ ∀ i p, store.bank i = .ready p → (store.bank i.other).ready? = none → store.candidate = some p)
    ∧ (∀ (h : Header) (w : BufferedWrite),
      let inWindow := h.base.toNat ≤ w.addr.toNat ∧ w.addr.toNat ≤ h.base.toNat + h.height * h.pitch - 1
      (¬ inWindow ∨ (∀ l ∈ h.lanes, l.master ≠ w.master) → h.inspectable w = none)
      ∧ ∀ before lane after, inWindow → h.lanes = before ++ lane :: after → (∀ l ∈ before, l.master ≠ w.master) →
        lane.master = w.master → h.inspectable w = some before.length)
    ∧ ∀ (h : Header) (w : BufferedWrite) (k : Nat) (lane : Lane), h.lanes[k]? = some lane →
      h.base.toNat % 16 = 0 → h.pitch % 16 = 0 → h.base.toNat ≤ w.addr.toNat →
      let firstBeat := w.addr.toNat / 16 * 16
      let pixel := fun (t : TakenBeat) (n j : Nat) =>
        let address := firstBeat + 16 * n + 4 * j
        let on := fun (byte : Nat) => (t.strobes.getLsbD (4 * j + byte) && decide (w.addr.toNat ≤ address + byte)).toNat
        ((address - h.base.toNat) / h.pitch,
          (⟨(address - h.base.toNat) % h.pitch / 4, t.data.extractLsb' (32 * j) 32,
            BitVec.ofNat 4 (on 0 + 2 * on 1 + 4 * on 2 + 8 * on 3)⟩ : Pixel))
      let inFrame := (w.taken.zipIdx.flatMap fun x => (List.range 4).map (pixel x.1 x.2)).filter fun x =>
        decide (x.1 < h.height ∧ x.2.column < h.width)
      let inLane := fun (x : Nat × Pixel) => decide (lane.first ≤ x.2.column ∧ x.2.column ≤ lane.last)
      makeBurst h k w =
        { master := w.master
          addr := w.addr
          lane := k
          damaged := w.taken.any (·.bad)
          outOfLane := inFrame.any fun x => !inLane x && decide (x.2.strobes ≠ 0)
          segments := (List.range h.height).filterMap fun row =>
            match ((inFrame.filter inLane).filter fun x => decide (x.1 = row)).map (·.2) with
            | [] => none
            | p :: more => some ⟨row, p.column, ((p :: more).getLastD p).column, p :: more⟩ }

/-- SEGMENT. C_LANE_RANGE is reported first, when it is due for the burst (log entry 17). A burst without a segment
then ends; without a burst nothing happens (log entry 2). A segment that breaks its lane's order counts nothing and
moves nothing: ORDER is set on the records whose region or gap has its row and shares a column with it, and C_ORDER
is reported. Any other goes through the steps of R33 in their order: the row advance, admission, the notice of the
watermark that moved, the counts or, for a burst with a parity error, the DAMAGED marks, the next column, and at the
end of the lane's row its notice and the test for a NORMAL close. All in all the lane's record and the admission
pointer move as R31, R32 and R63 say, and the frame closes NORMAL when it is OPEN and the segment ends its lane's row
with every lane's watermark at height - 1. A joint is admitted with a record of zeros, its wait set and its
completion row, or refused OPEN_SET_FULL while 512 records are open. A notice closes the gap rows the lane has
finished, and the records complete on it are judged in order and leave (R28, R30 to R33, R37, R56, R60, R61, R63,
R64, R67, R70, R72, R73). With an inspection reset pending, InspectionResetClearsTheInspection says what is added
(R44). -/
def Obligations.SegmentIsCountedOrReported : Prop :=
    (∀ (s : State) (p : Program) (burst : Burst) (seg : Segment) (rest : List Segment) (q : LaneProgress),
      s.block.tracker.burst = some burst → burst.segments = seg :: rest → s.block.store.activeProgram = some p →
      s.block.tracker.progress[burst.lane]? = some q → s.block.decoder.resetPending = false →
      let b := if burst.outOfLane then s.block.report ⟨.cLaneRange, .minor, burst.master, burst.addr, 0⟩ else s.block
      let left : Option Burst := if rest = [] then none else some { burst with outOfLane := false, segments := rest }
      let lane := p.header.lane burst.lane
      let touches := fun (a : Accumulator) =>
        let meets := fun (g : Rect) =>
          decide (g.y0 ≤ seg.row ∧ seg.row ≤ g.y1 ∧ g.x0 ≤ seg.last ∧ seg.first ≤ g.x1)
        meets a.region || a.gap.any meets
      let breaks := seg.row < q.row ∨ (seg.row = q.row ∧ seg.first < q.column)
      let entered : LaneProgress := if q.row < seg.row then ⟨seg.row, lane.first, (seg.row : Int) - 1⟩ else q
      let moved : LaneProgress := if seg.last = lane.last then ⟨seg.row + 1, lane.first, seg.row⟩
        else { entered with column := seg.last + 1 }
      (breaks →
        let ordered := b.joints.records.map fun a => if touches a then { a with order := true } else a
        exec .segment s = .next (s.withBlock
          { ({ b with joints := { b.joints with records := ordered } } : Block).report
              ⟨.cOrder, .minor, burst.master, burst.addr, 0⟩ with
            tracker := { s.block.tracker with burst := left } }))
      ∧ (¬ breaks →
        let row := if q.row < seg.row then b.setProgress burst.lane entered else b
        let admitted := row.admitRow p seg.row
        let noticed := if q.row < seg.row then admitted.notice p burst.lane else admitted
        let counts := fun (a : Accumulator) =>
          if burst.damaged then (if touches a then { a with damaged := true } else a)
          else a.accumulate (p.recipe a.recipe) seg
        let counted : Block := { noticed with joints :=
          { noticed.joints with records := noticed.joints.records.map counts } }
        let done := counted.setProgress burst.lane moved
        let ended := if seg.last = lane.last then
            (if (done.notice p burst.lane).tracker.progress.all fun x =>
                decide (x.watermark = (p.header.height : Int) - 1) then
              (done.notice p burst.lane).closeFrame .normal
            else done.notice p burst.lane)
          else done
        exec .segment s = .next (s.withBlock { ended with tracker := { ended.tracker with burst := left } }))
      ∧ (¬ breaks → ∃ t, exec .segment s = .next (s.withBlock t)
        ∧ t.joints.pointer = s.block.joints.pointer
            + ((p.joints.drop s.block.joints.pointer).takeWhile fun j => decide (j.region.y0 ≤ seg.row)).length
        ∧ t.tracker =
          { (if s.block.tracker.state = .opened ∧ seg.last = lane.last
                ∧ (∀ x ∈ s.block.tracker.progress.set burst.lane moved, x.watermark = (p.header.height : Int) - 1) then
              { s.block.tracker with state := .closing, closeKind := some .normal }
            else s.block.tracker) with
            progress := s.block.tracker.progress.set burst.lane moved, burst := left }))
    ∧ (∀ s : State,
      (s.block.tracker.burst = none → exec .segment s = .next s)
      ∧ ∀ burst, s.block.tracker.burst = some burst → burst.segments = [] → s.block.store.activeProgram ≠ none →
        s.block.decoder.resetPending = false →
        let b := if burst.outOfLane then s.block.report ⟨.cLaneRange, .minor, burst.master, burst.addr, 0⟩
          else s.block
        exec .segment s = .next (s.withBlock { b with tracker := { s.block.tracker with burst := none } }))
    ∧ (∀ (b : Block) (p : Program) (row : Nat),
      (p.joints.drop b.joints.pointer = [] → b.admitRow p row = b)
      ∧ ∀ j rest, p.joints.drop b.joints.pointer = j :: rest →
        (row < j.region.y0 → b.admitRow p row = b)
        ∧ (j.region.y0 ≤ row → b.joints.records.length < 512 →
          b.admitRow p row = ({ b with joints :=
            { pointer := b.joints.pointer + 1
              records := b.joints.records ++ [
                { index := b.joints.pointer
                  region := j.region
                  gap := j.gap
                  recipe := j.recipe
                  counts := ⟨0, 0, 0, 0, 0, 0, 0, 0⟩
                  gapPart := j.gap.map fun _ => ⟨none, 0, 0⟩
                  damaged := false
                  order := false
                  waitSet := (List.range p.header.lanes.length).filter fun k =>
                    let meets := fun (g : Rect) =>
                      decide ((p.header.lane k).first ≤ g.x1 ∧ g.x0 ≤ (p.header.lane k).last)
                    meets j.region || j.gap.any meets
                  completionRow := match j.gap with
                    | some g => max j.region.y1 g.y1
                    | none => j.region.y1 }] } } : Block).admitRow p row)
        ∧ (j.region.y0 ≤ row → 512 ≤ b.joints.records.length →
          b.admitRow p row = (({ b with joints :=
              { b.joints with pointer := b.joints.pointer + 1 } } : Block).giveResult
            { frame := b.tracker.number
              index := b.joints.pointer
              label := j.label
              verdict := .unreadable
              cause := some .openSetFull
              defects := ⟨false, false, false, false⟩
              measurement := none
              bridgedRows := none
              order := false
              incomplete := false
              advisory := decide (j.weight = .advisory) }).admitRow p row))
    ∧ (∀ (b : Block) (p : Program) (k : Nat) (q : LaneProgress), b.tracker.progress[k]? = some q →
      let inLane := fun (a : Accumulator) =>
        ∃ g part y, a.gap = some g ∧ a.gapPart = some part ∧ part.row = some y
          ∧ (p.header.lane k).first ≤ g.x0 ∧ g.x0 ≤ (p.header.lane k).last ∧ (y : Int) ≤ q.watermark
      let reachedBy := fun (a : Accumulator) (l : Nat) =>
        match b.tracker.progress[l]? with
        | some x => decide ((a.completionRow : Int) ≤ x.watermark)
        | none => decide ((a.completionRow : Int) ≤ -1)
      let leaves := fun (a : Accumulator) => a.waitSet.contains k && a.waitSet.all (reachedBy a)
      ∀ closed : List Accumulator, List.Forall₂ (fun a c => (inLane a ∧ c = a.closeGapRow) ∨ (¬ inLane a ∧ c = a))
          b.joints.records closed →
        b.notice p k = (closed.filter leaves).foldl (fun b a => b.judgeRecord p .completed a.closeGapRow)
          { b with joints := { b.joints with records := closed.filter fun a => !leaves a } })

/-- What a segment adds to a record. Its overlap with the region, or the gap, is its pixels of the columns of that
rectangle when its row lies in it. Each pixel of its overlap with the region goes once into n_invalid or into one
class, DARK, FLAT, SLOPE, STEEP or MIXED, by the tests in their order; the sums of the valid ones go into sum_S, and
n_sat counts the valid overexposed ones. A segment whose overlap with the gap is empty leaves the gap part; otherwise
its solder-like count starts the gap row, adds to it, or closes the row before and starts the new one. A gap row
closed with every column solder-like adds 1 to bridged_rows, which stops at 255. L, M, T and the mark are bits 0 to
9, 10 to 19, 20 to 29 and 30 to 31 of the pixel word (R45 to R51, R53, R66, R69, R71, R199). -/
def Obligations.SegmentCountsEachPixelOnce : Prop :=
  let inside := fun (seg : Segment) (rect : Rect) => seg.pixels.filter fun x =>
    decide (rect.y0 ≤ seg.row ∧ seg.row ≤ rect.y1 ∧ rect.x0 ≤ x.column ∧ x.column ≤ rect.x1)
  (∀ (a : Accumulator) (r : Recipe) (seg : Segment),
    let n := fun (test : Pixel → Bool) => (inside seg a.region).countP test
    let lit := fun (x : Pixel) => x.valid && decide (r.darkSum ≤ x.sum)
    let flat := fun (x : Pixel) => decide (x.mid + r.margin ≤ x.top ∧ x.low + r.margin ≤ x.top)
    let slope := fun (x : Pixel) => decide (x.top + r.margin ≤ x.mid ∧ x.low + r.margin ≤ x.mid)
    let steep := fun (x : Pixel) => decide (x.top + r.margin ≤ x.low ∧ x.mid + r.margin ≤ x.low)
    let c := (a.accumulate r seg).counts
    c.counted = a.counts.counted + (inside seg a.region).length
    ∧ c.invalid = a.counts.invalid + n (fun x => decide (2 ≤ x.mark) || x.strobes != BitVec.allOnes 4)
    ∧ c.dark = a.counts.dark + n (fun x => x.valid && decide (x.sum < r.darkSum))
    ∧ c.flat = a.counts.flat + n (fun x => lit x && flat x)
    ∧ c.slope = a.counts.slope + n (fun x => lit x && !flat x && slope x)
    ∧ c.steep = a.counts.steep + n (fun x => lit x && !flat x && !slope x && steep x)
    ∧ c.mixed = a.counts.mixed + n (fun x => lit x && !flat x && !slope x && !steep x)
    ∧ c.sat = a.counts.sat + n (fun x => x.valid && decide (x.mark = 1))
    ∧ c.sumS = a.counts.sumS + (((inside seg a.region).filter Pixel.valid).map Pixel.sum).sum
    ∧ (a.accumulate r seg) =
        { a with counts := (a.accumulate r seg).counts, gapPart := (a.accumulate r seg).gapPart })
  ∧ (∀ (a : Accumulator) (r : Recipe) (seg : Segment),
    (a.gap = none → (a.accumulate r seg).gapPart = a.gapPart)
    ∧ ∀ gap part, a.gap = some gap → a.gapPart = some part →
      let solder := (inside seg gap).countP fun x => x.valid && decide (r.darkSum ≤ x.sum)
      (inside seg gap = [] → (a.accumulate r seg).gapPart = some part)
      ∧ (inside seg gap ≠ [] →
        (part.row = none → (a.accumulate r seg).gapPart = some ⟨some seg.row, solder, part.bridged⟩)
        ∧ (part.row = some seg.row →
          (a.accumulate r seg).gapPart = some ⟨some seg.row, part.count + solder, part.bridged⟩)
        ∧ ∀ y, part.row = some y → y < seg.row → (a.accumulate r seg).gapPart = some ⟨some seg.row, solder,
            if part.count = gap.x1 - gap.x0 + 1 then min 255 (part.bridged + 1) else part.bridged⟩))
  ∧ (∀ (a : Accumulator) (gap : Rect) (part : GapPart), a.gap = some gap → a.gapPart = some part →
    (part.row = none → a.closeGapRow = a)
    ∧ (part.row ≠ none → a.closeGapRow = { a with gapPart := some ⟨none, 0,
        if part.count = gap.x1 - gap.x0 + 1 then min 255 (part.bridged + 1) else part.bridged⟩ }))
  ∧ ∀ x : Pixel,
    x.low = x.word.toNat % 1024 ∧ x.mid = x.word.toNat / 1024 % 1024 ∧ x.top = x.word.toNat / 1048576 % 1024
    ∧ x.mark = x.word.toNat / 1073741824 ∧ x.sum = x.low + x.mid + x.top
    ∧ (x.valid = true ↔ (x.mark = 0 ∨ x.mark = 1) ∧ x.strobes = 15)

/-- The judgement of a record. One that is FORCED is UNREADABLE, TRUNCATED, and one that is DAMAGED is UNREADABLE, DAMAGED.
Otherwise it is UNREADABLE with the first cause that applies, NO_VALID, LOW_VALID, SATURATED, or readable: then each defect
test that fires adds its defect, and the verdict is the most severe defect found, in the order BRIDGE, NONWET,
INSUFFICIENT, EXCESS, or OK without one. An UNREADABLE record has no defect found (R84 to R87). -/
def Obligations.VerdictFollowsTheStages : Prop :=
  ∀ (a : Accumulator) (r : Recipe),
    a.judge r .forced = (.unreadable, some .truncated, ⟨false, false, false, false⟩)
    ∧ (a.damaged = true → a.judge r .completed = (.unreadable, some .damaged, ⟨false, false, false, false⟩))
    ∧ (a.damaged = false →
      let v := a.counts.flat + a.counts.slope + a.counts.steep + a.counts.mixed + a.counts.dark
      let area := (a.region.x1 - a.region.x0 + 1) * (a.region.y1 - a.region.y0 + 1)
      let bridge := 1 ≤ r.bridgeRows ∧ ∃ g, a.gapPart = some g ∧ r.bridgeRows ≤ g.bridged
      let nonwet := r.darkMax < 256 * a.counts.dark / v ∨ a.counts.sumS / v < r.brightMin
      let insufficient := 256 * a.counts.slope / v < r.slopeMin
      let excess := r.steepMax < 256 * a.counts.steep / v
      (v = 0 → a.judge r .completed = (.unreadable, some .noValid, ⟨false, false, false, false⟩))
      ∧ (v ≠ 0 → 256 * v / area < r.minValid →
          a.judge r .completed = (.unreadable, some .lowValid, ⟨false, false, false, false⟩))
      ∧ (v ≠ 0 → r.minValid ≤ 256 * v / area → r.satMax < 256 * a.counts.sat / v →
          a.judge r .completed = (.unreadable, some .saturated, ⟨false, false, false, false⟩))
      ∧ (v ≠ 0 → r.minValid ≤ 256 * v / area → 256 * a.counts.sat / v ≤ r.satMax →
          ∃ found : Defects, (found.bridge = true ↔ bridge) ∧ (found.nonwet = true ↔ nonwet)
          ∧ (found.insufficient = true ↔ insufficient) ∧ (found.excess = true ↔ excess)
          ∧ (bridge → a.judge r .completed = (.bridge, none, found))
          ∧ (¬ bridge → nonwet → a.judge r .completed = (.nonwet, none, found))
          ∧ (¬ bridge → ¬ nonwet → insufficient → a.judge r .completed = (.insufficient, none, found))
          ∧ (¬ bridge → ¬ nonwet → ¬ insufficient → excess → a.judge r .completed = (.excess, none, found))
          ∧ (¬ bridge → ¬ nonwet → ¬ insufficient → ¬ excess → a.judge r .completed = (.ok, none, found))))

/-- CLOSING first hands over what is left: every record still open, in their order, judged, UNREADABLE unless it is
complete (log entry 36), then every joint not admitted, in table order, UNREADABLE with NOT_REACHED; the set is empty
afterwards. Then the frame's verdict, REJECT when a CRITICAL joint failed or the close was not NORMAL, one BOARD
record, queued, or dropped by a full output queue, the frame IDLE, and a rewrite asked for. The bound board, still
IMAGING in the queue, is JUDGED, its record with the gate action expected as the gate mode then stands, a release
taken since a containment included (the model's choice, log entry 45); of an UNMATCHED frame the record has
serial 0 and no action, the queue unchanged; of a board that has left the queue it has the flag LATE and the action
of the late note, which is removed. A record handed over gives the joint result of R81; a result given is counted in
the tally, and queued, dropped and counted as lost, or, when the report mode does not admit it, neither. With an
inspection reset pending, InspectionResetClearsTheInspection says what is added (R41, R76, R77, R81, R90, R92, R93,
R105, R106, R107, R108, R169, R170). -/
def Obligations.ClosingJudgesBoardAndJoints : Prop :=
    (∀ (s : State) (p : Program),
      s.block.tracker.state = .closing → s.block.tracker.burst = none → s.block.store.activeProgram = some p →
      exec .closing s = exec .closing (s.withBlock s.block.closeVerdicts))
    ∧ (∀ (b : Block) (p : Program), b.store.activeProgram = some p →
      let judged := b.joints.records.foldl
        (fun b' a => b'.judgeRecord p (if a.complete b.tracker.progress then .completed else .forced) a.closeGapRow)
        { b with joints := { b.joints with records := [] } }
      b.closeVerdicts = ((p.joints.drop b.joints.pointer).zipIdx b.joints.pointer).foldl
        (fun b' x => b'.giveResult
          { frame := b.tracker.number
            index := x.2
            label := x.1.label
            verdict := .unreadable
            cause := some .notReached
            defects := ⟨false, false, false, false⟩
            measurement := none
            bridgedRows := none
            order := false
            incomplete := false
            advisory := decide (x.1.weight = .advisory) })
        { judged with joints := { records := [], pointer := max b.joints.pointer p.joints.length } })
    ∧ (∀ (s : State) (p : Program) (kind : CloseKind),
      s.block.tracker.state = .closing → s.block.tracker.burst = none →
      s.block.tracker.closeKind = some kind → s.block.store.activeProgram = some p →
      s.block.joints.records = [] → p.joints.length ≤ s.block.joints.pointer →
      s.block.decoder.resetPending = false →
      let verdict : BoardVerdict := if s.block.tally.critical ∨ kind ≠ .normal then .reject else .pass
      let closed := fun (line : Line) (serial : Serial) (late unmatched : Bool) (action : GateAction) =>
        { s.block.askRewrite with
          tracker := { s.block.tracker with state := .idle, closeKind := none }
          line := line
          writer := if s.block.writer.queue.length < 32 then { s.block.writer with
            queue := s.block.writer.queue ++ [.board
            { frame := s.block.tracker.number
              serial := serial
              programId := p.header.programId
              verdict := verdict
              counts := s.block.tally.counts
              lost := s.block.tally.lost
              late := late
              notImaged := false
              unmatched := unmatched
              truncated := decide (kind = .truncated)
              timeout := decide (kind = .timeout)
              action := action }] }
            else { s.block.writer with drops := min 4294967295 (s.block.writer.drops + 1) } }
      (∀ before board after f, s.block.tracker.binding = some board.serial →
        s.block.line.queue = before ++ board :: after → board.state = .imaging f →
        (∀ x ∈ before ++ after, x.serial ≠ board.serial) →
        exec .closing s = .next (s.withBlock (closed
          { s.block.line with queue := before ++ { board with state := .judged f verdict } :: after }
          board.serial false false (match s.block.line.gateMode with
            | .active => .driven
            | .off => .off
            | .held => .forced))))
      ∧ (s.block.tracker.binding = none →
        exec .closing s = .next (s.withBlock (closed s.block.line 0 false true .none)))
      ∧ (∀ serial, s.block.tracker.binding = some serial →
        (∀ x ∈ s.block.line.queue, ∀ f, x.state = .imaging f → x.serial ≠ serial) →
        exec .closing s = .next (s.withBlock
          (closed { s.block.line with lateNote := none } serial true false (match s.block.line.lateNote with
            | some note => note.action
            | none => .none)))))
    ∧ (∀ (b : Block) (p : Program), b.store.activeProgram = some p →
      (∀ a ∈ b.joints.records, a.complete b.tracker.progress = false) →
      b.closeVerdicts.joints.records = []
      ∧ b.closeVerdicts.joints.pointer = max b.joints.pointer p.joints.length
      ∧ b.closeVerdicts.tally.counts = { b.tally.counts with unreadable :=
          b.tally.counts.unreadable + b.joints.records.length + (p.joints.length - b.joints.pointer) })
    ∧ (∀ (b : Block) (p : Program) (kind : HandOver) (a : Accumulator) (j : Joint), p.joints[a.index]? = some j →
      let v := a.counts.flat + a.counts.slope + a.counts.steep + a.counts.mixed + a.counts.dark
      let area := (a.region.x1 - a.region.x0 + 1) * (a.region.y1 - a.region.y0 + 1)
      let judged := a.judge (p.recipe a.recipe) kind
      b.judgeRecord p kind a = b.giveResult
        { frame := b.tracker.number
          index := a.index
          label := j.label
          verdict := judged.1
          cause := judged.2.1
          defects := judged.2.2
          measurement := some ⟨256 * v / area, 256 * a.counts.sat / v, 256 * a.counts.flat / v,
            256 * a.counts.slope / v, 256 * a.counts.steep / v, 256 * a.counts.dark / v, a.counts.sumS / v⟩
          bridgedRows := a.gapPart.map (·.bridged)
          order := a.order
          incomplete := decide (v + a.counts.invalid < area)
          advisory := decide (j.weight = .advisory) })
    ∧ (∀ (b : Block) (r : JointResult),
      let c := b.tally.counts
      let counted : Block := { b with tally :=
        { counts := match r.verdict with
            | .ok => { c with ok := c.ok + 1 }
            | .excess => { c with excess := c.excess + 1 }
            | .insufficient => { c with insufficient := c.insufficient + 1 }
            | .nonwet => { c with nonwet := c.nonwet + 1 }
            | .bridge => { c with bridge := c.bridge + 1 }
            | .unreadable => { c with unreadable := c.unreadable + 1 }
          critical := b.tally.critical || (decide (r.verdict ≠ .ok) && !r.advisory)
          lost := b.tally.lost } }
      let admitted := b.line.config.report = .all ∨ (b.line.config.report = .defects ∧ r.verdict ≠ .ok)
      (¬ admitted → b.giveResult r = counted)
      ∧ (admitted → b.writer.queue.length < 24 → b.giveResult r =
          { counted with writer := { b.writer with queue := b.writer.queue ++ [.joint r] } })
      ∧ (admitted → 24 ≤ b.writer.queue.length → b.giveResult r =
          { counted with
            tally := { counted.tally with lost := b.tally.lost + 1 }
            writer := { b.writer with drops := min 4294967295 (b.writer.drops + 1) } }))

/-! ### Line -/

/-- The first sample after a full reset becomes the last sample, and a sample equal to the last one changes nothing.
A legal encoder step moves the position by 1, up for a step in the order 00, 10, 11, 01 under NORMAL, down in the
other order, and the reverse under REVERSED. Then a line driven to an end that the position has reached goes inactive
into DEAD; then the due boards are taken; then, while the frame is OPEN under a valid configuration with a timeout, a
travel of the timeout or more reports L_FRAME_TIMEOUT with the bound serial, or 0, and closes the frame TIMEOUT; a
close is taken while the frame is OPEN only. A sample in which both inputs changed leaves the position and reports
L_ENCODER, by ENCODER_STEP as by ILLEGAL_STEP (R38, R40, R97, R99, R100, R117; log entry 23). -/
def Obligations.EncoderStepMovesOrReports : Prop :=
    (∀ (s : State) (a b : Bool),
      (s.block.line.lastSample = none → exec (.encoderStep a b) s = .next (s.withBlock
        { s.block with line := { s.block.line with lastSample := some (a, b) } }))
      ∧ (s.block.line.lastSample = some (a, b) → exec (.encoderStep a b) s = .next s)
      ∧ ∀ last : Bool × Bool, s.block.line.lastSample = some last → (xor (last.1 ≠ a) (last.2 ≠ b) = true) →
        let up := decide ((last, (a, b)) ∈
          [((false, false), (true, false)), ((true, false), (true, true)), ((true, true), (false, true)),
           ((false, true), (false, false))])
        let position := if xor up (decide (s.block.line.config.sense = .reversed)) = true then
            s.block.line.position + 1
          else s.block.line.position - 1
        exec (.encoderStep a b) s = .next (s.withBlock (Block.dueBoards s.block.line.queue.length
          { s.block with line := { s.block.line with
            lastSample := some (a, b)
            position := position
            driver := match s.block.line.driver with
              | .driving kind (some endAt) o =>
                if 0 ≤ (position - endAt).toInt then
                  (if s.block.line.config.deadTime = 0 then .idle
                    else .dead kind s.block.line.config.deadTime none)
                else .driving kind (some endAt) o
              | d => d } }).timeoutTest))
    ∧ (∀ b : Block,
      let due := b.tracker.state = .opened ∧ b.line.config.valid = true ∧ b.line.config.timeout ≠ 0
        ∧ (b.line.config.timeout : Int) ≤ (b.line.position - b.tracker.opening).toInt
      (¬ due → b.timeoutTest = b)
      ∧ (due → b.timeoutTest = (b.report ⟨.lFrameTimeout, .degraded, 0, 0,
          match b.tracker.binding with
          | some serial => serial
          | none => 0⟩).closeFrame .timeout)
      ∧ ∀ kind, (b.tracker.state ≠ .opened → b.closeFrame kind = b)
        ∧ (b.tracker.state = .opened → b.closeFrame kind =
            { b.askRewrite with tracker := { b.tracker with state := .closing, closeKind := some kind } }))
    ∧ (∀ (s : State) (a b : Bool), s.block.line.lastSample = some (a, b) →
      exec .illegalStep s = .next (s.withBlock
        (({ s.block with line := { s.block.line with lastSample := some (!a, !b) } } : Block).report
          ⟨.lEncoder, .degraded, 0, 0, 0⟩))
      ∧ exec (.encoderStep (!a) (!b)) s = exec .illegalStep s)

/-- The due test at the head of the queue. With no board, or a head that is not due, nothing changes. A due head
takes its action, PASS or REJECT by its verdict when JUDGED, REJECT otherwise: the gate driver takes it in gate mode
ACTIVE, up to the due position plus the gate window, and the outputs are not touched in OFF and HELD. An IMAGING
board leaves a late note with its action state, and L_LATE is reported; an AWAITING_IMAGE board's BOARD record,
NOT_IMAGED with that action state, is queued, or dropped by a full output queue. The board leaves the queue, a
rewrite is asked for, and the new head is tested. A JUDGED board in mode ACTIVE with the driver IDLE thus drives the
line of its verdict (R106, R108, R109, R110, R111, R113). -/
def Obligations.DueBoardTakesItsAction : Prop :=
    (∀ (n : Nat) (b : Block),
      b.line.queue = [] ∨ (∃ board rest, b.line.queue = board :: rest ∧ (b.line.position - board.due).toInt < 0) →
      Block.dueBoards n b = b)
    ∧ (∀ (n : Nat) (b : Block) (board : Board) (rest : List Board), b.line.queue = board :: rest →
      0 ≤ (b.line.position - board.due).toInt →
      let taken := fun (kind : GateLine) => match b.line.gateMode with
        | .active => (b.line.takeAction kind (board.due + BitVec.ofNat 32 b.line.config.window) board.serial,
            GateAction.driven)
        | .off => (b.line, .off)
        | .held => (b.line, .forced)
      let next := fun (t : Block) =>
        Block.dueBoards n { t.askRewrite with line := { t.line with queue := rest } }
      (∀ f v, board.state = .judged f v → Block.dueBoards (n + 1) b = next { b with line :=
        (taken (match v with
          | .pass => .pass
          | .reject => .reject)).1 })
      ∧ (∀ f, board.state = .imaging f → Block.dueBoards (n + 1) b = next (({ b with line :=
          { (taken .reject).1 with lateNote := some ⟨board.serial, (taken .reject).2⟩ } } : Block).report
            ⟨.lLate, .minor, 0, 0, board.serial⟩))
      ∧ (board.state = .awaitingImage → Block.dueBoards (n + 1) b = next { b with
          line := (taken .reject).1
          writer := if b.writer.queue.length < 32 then { b.writer with queue := b.writer.queue ++ [.board
              { frame := 0
                serial := board.serial
                programId := match b.store.activeProgram with
                  | some p => p.header.programId
                  | none => 0
                verdict := .reject
                counts := ⟨0, 0, 0, 0, 0, 0⟩
                lost := 0
                late := false
                notImaged := true
                unmatched := false
                truncated := false
                timeout := false
                action := (taken .reject).2 }] }
            else { b.writer with drops := min 4294967295 (b.writer.drops + 1) } }))
    ∧ (∀ (b : Block) (board : Board) (boards : List Board) (f : FrameNumber) (v : BoardVerdict),
      b.line.queue = board :: boards → board.state = .judged f v →
      reached b.line.position board.due = true → (∀ x ∈ boards, reached b.line.position x.due = false) →
      b.line.gateMode = .active → b.line.driver = .idle →
      reached b.line.position (board.due + BitVec.ofNat 32 b.line.config.window) = false →
      Block.dueBoards b.line.queue.length b = { b.askRewrite with line := { b.line with
        queue := boards
        driver := .driving (match v with
          | .pass => .pass
          | .reject => .reject) (some (board.due + BitVec.ofNat 32 b.line.config.window)) (some board.serial) } })

/-- A leading edge with a valid configuration and room enters a board at the tail of the queue, AWAITING_IMAGE, due
one diverter distance on, and the serial counter goes up; with an invalid configuration it changes the settled level
alone; FullBoardQueueHoldsTheGate says what it does with a full queue. A trailing edge changes the settled level
alone. An edge to the level already settled changes nothing. A sample equal to the settled level sets the run count
to 0; the first three that differ in a row add 1; the fourth changes the settled level, in the leading direction with
all that BOARD_EDGE_LEADING does (R101, R102; log entries 2, 24). -/
def Obligations.BoardEdgeSettlesAndEntersBoards : Prop :=
    (∀ s : State,
      (s.block.line.settled ≠ decide (s.block.line.config.polarity = .rising) → s.block.line.config.valid = true →
        s.block.line.queue.length < 8 →
        exec .boardEdgeLeading s = .next (s.withBlock { s.block.askRewrite with line := { s.block.line with
          settled := decide (s.block.line.config.polarity = .rising)
          runCount := 0
          serial := s.block.line.serial + 1
          queue := s.block.line.queue ++ [⟨s.block.line.serial, s.block.line.position,
            s.block.line.position + BitVec.ofNat 32 s.block.line.config.diverter, .awaitingImage⟩] } }))
      ∧ (s.block.line.settled ≠ decide (s.block.line.config.polarity = .rising) →
        (s.block.line.config.valid = false →
          exec .boardEdgeLeading s = .next (s.withBlock { s.block with line := { s.block.line with
            settled := !s.block.line.settled, runCount := 0 } }))
        ∧ exec .boardEdgeTrailing s = .next s)
      ∧ (s.block.line.settled = decide (s.block.line.config.polarity = .rising) →
        exec .boardEdgeLeading s = .next s ∧
        exec .boardEdgeTrailing s = .next (s.withBlock { s.block with line := { s.block.line with
          settled := !s.block.line.settled, runCount := 0 } })))
    ∧ (∀ (s : State) (high : Bool),
      (high = s.block.line.settled →
        exec (.boardEdgeSample high) s = .next (s.withBlock { s.block with line :=
          { s.block.line with runCount := 0 } }))
      ∧ (high ≠ s.block.line.settled → s.block.line.runCount < 3 →
        exec (.boardEdgeSample high) s = .next (s.withBlock { s.block with line :=
          { s.block.line with runCount := s.block.line.runCount + 1 } }))
      ∧ (high ≠ s.block.line.settled → s.block.line.runCount = 3 →
        (high ≠ decide (s.block.line.config.polarity = .rising) →
          exec (.boardEdgeSample high) s = .next (s.withBlock { s.block with line :=
            { s.block.line with settled := high, runCount := 0 } }))
        ∧ (high = decide (s.block.line.config.polarity = .rising) →
          exec (.boardEdgeSample high) s = exec .boardEdgeLeading s)))

/-- A leading edge with a valid configuration and 8 boards in the queue settles the level and enters none: the
untracked count goes up, saturating at 65535; L_QUEUE_FULL is reported with the serial the next board will get, with
all that a report does; a rewrite is asked for; and nothing else changes. So the queue and the serial counter stay,
the gate mode is HELD afterwards, and an empty line log holds L_QUEUE_FULL (R103, R143, R144; log entry 24). -/
def Obligations.FullBoardQueueHoldsTheGate : Prop :=
  ∀ s : State, s.block.line.settled ≠ decide (s.block.line.config.polarity = .rising) →
    s.block.line.config.valid = true → 8 ≤ s.block.line.queue.length →
    let counted : Block := { s.block with line := { s.block.line with
      settled := !s.block.line.settled
      runCount := 0
      untracked := min 65535 (s.block.line.untracked + 1) } }
    let reported := counted.report ⟨.lQueueFull, .fatal, 0, 0, s.block.line.serial⟩
    exec .boardEdgeLeading s = .next (s.withBlock reported.askRewrite)
    ∧ reported.line.queue = s.block.line.queue ∧ reported.line.serial = s.block.line.serial
    ∧ reported.line.untracked = min 65535 (s.block.line.untracked + 1) ∧ reported.line.gateMode = .held
    ∧ (s.block.logs.line.held = none →
      reported.logs.line.held = some ⟨.lQueueFull, .fatal, 0, 0, s.block.line.serial⟩)
    ∧ reported.capture = s.block.capture ∧ reported.system = s.block.system ∧ reported.memory = s.block.memory
    ∧ reported.decoder = s.block.decoder ∧ reported.store = s.block.store ∧ reported.tracker = s.block.tracker
    ∧ reported.joints = s.block.joints ∧ reported.tally = s.block.tally

/-- When the DEAD interval runs out the driver goes to IDLE without a pending action; a pending action drives its
line, or, its end already reached, leaves DEAD again with that line; the hold drives the reject line without an end
(R116). What is left of the interval passes for the response timers too (log entry 3). -/
def Obligations.DeadTimeEndTakesThePendingAction : Prop :=
  ∀ (s : State) (line : GateLine) (left : Nat) (pending : Option Pending),
    s.block.line.driver = .dead line left pending →
    exec .deadTimeEnd s = .next (s.withBlock { s.block with
      memory := { s.block.memory with
        table := s.block.memory.table.map fun e => { e with timer := e.timer - left } }
      line := { s.block.line with driver :=
        match pending with
        | none => .idle
        | some .hold => .driving .reject none none
        | some (.action kind endAt owner) =>
          if reached s.block.line.position endAt = false then .driving kind (some endAt) (some owner)
          else if s.block.line.config.deadTime = 0 then .idle
          else .dead kind s.block.line.config.deadTime none } })

/-- How the gate driver takes an action. From IDLE, or DEAD with the line of the same kind inactive and nothing
pending, it drives the line, or, the end already reached, goes DEAD with it. While driving the same kind it keeps the
later end; while driving the other kind the action in force is cut, and the driver goes DEAD with the new one
pending, which with a dead time of 0 is driven at once. In DEAD the action becomes pending, joins a pending one of
the same kind, or replaces one of the other kind, which is cut. A change of the gate mode to OFF lets it go: an
active line goes inactive into DEAD, or IDLE with a dead time of 0, its action cut; a pending action is discarded and
cut. The late note of a board whose action is cut, if it says DRIVEN, says CUT; nothing else of the line changes
(R111 to R115, R118; log entries 26, 34). -/
def Obligations.GateDriverTakesAndDropsActions : Prop :=
    (∀ (l : Line) (kind : GateLine) (endAt : Position) (owner : Serial),
      let drives : GateDriver :=
        if 0 ≤ (l.position - endAt).toInt then
          (if l.config.deadTime = 0 then .idle else .dead kind l.config.deadTime none)
        else .driving kind (some endAt) (some owner)
      let cut := fun (o : Option Serial) => match o with
        | some board => l.noteChanged board .cut
        | none => l.lateNote
      (l.driver = .idle → l.takeAction kind endAt owner = { l with driver := drives })
      ∧ (∀ other held o, l.driver = .driving other (some held) o →
        (other = kind → l.takeAction kind endAt owner = { l with
          driver := .driving kind (some (if 0 ≤ (held - endAt).toInt then held else endAt)) (some owner) })
        ∧ (other ≠ kind → l.takeAction kind endAt owner = { l with
          lateNote := cut o
          driver := if l.config.deadTime = 0 then drives
            else .dead other l.config.deadTime (some (.action kind endAt owner)) }))
      ∧ (∀ line left, l.driver = .dead line left none →
        (line = kind → l.takeAction kind endAt owner = { l with driver := drives })
        ∧ (line ≠ kind → l.takeAction kind endAt owner = { l with
          driver := .dead line left (some (.action kind endAt owner)) }))
      ∧ (∀ line left other held o, l.driver = .dead line left (some (.action other held o)) →
        (other = kind → l.takeAction kind endAt owner = { l with
          driver := .dead line left
            (some (.action kind (if 0 ≤ (held - endAt).toInt then held else endAt) owner)) })
        ∧ (other ≠ kind → l.takeAction kind endAt owner = { l with
          lateNote := cut (some o)
          driver := .dead line left (some (.action kind endAt owner)) })))
    ∧ (∀ l : Line, l.letGo = { l with
      driver := match l.driver with
        | .idle => .idle
        | .driving kind _ _ => if l.config.deadTime = 0 then .idle else .dead kind l.config.deadTime none
        | .dead line left _ => .dead line left none
      lateNote := match l.driver with
        | .driving _ _ (some o) => l.noteChanged o .cut
        | .dead _ _ (some (.action _ _ o)) => l.noteChanged o .cut
        | _ => l.lateNote })

/-! ### Memory port -/

/-- A grant sends the READY head write of an upstream port, when no source before the port in the cyclic order after
the last grantee presents a request, and the port's head read may not go or was taken after it: with a tag not held,
data and strobes unchanged, a poison mark on each bad beat and parity computed anew; it leaves the buffer and enters
the outstanding table at the memory response limit. A capture write that overlaps the mailbox window, 4096 bytes, is
then reported C_MAILBOX_FOREIGN; a system write that does, without a bad beat, is copied to the mailbox decoder,
which acts as CopyFollowsTheStrobes says; with one it is not (R132, R151, R153, R154, R156, R158, R159, R161, R163,
R182, R189). -/
def Obligations.GrantForwardsTheHeadWrite : Prop :=
  ∀ (s : State) (pick : Nat) (segmentInHand : Bool) (i : PortId) (w : BufferedWrite)
    (rest : List BufferedWrite) (tag : Nat),
    s.block.inTurn (portSource i) →
    (s.block.port i).buffer = w :: rest → w.state = .ready →
    (∀ r more, (s.block.port i).reads = r :: more →
      w.stamp < r.stamp
      ∨ (∃ v ∈ (s.block.port i).buffer, v.stamp < r.stamp
          ∧ (byteRange v.addr v.beats).overlaps (byteRange r.addr r.beats) = true)
      ∨ (i = .system ∧ ∃ q ∈ s.block.master.queue, q.stamp < r.stamp ∧ q.work.direction = .write
          ∧ (s.block.workRange q.work).overlaps (byteRange r.addr r.beats) = true)
      ∨ 16 ≤ s.block.memory.outstanding (portSource i) .read
      ∨ s.block.memory.conflicts (byteRange r.addr r.beats) .read = true) →
    s.block.memory.outstanding (portSource i) .write < 8 →
    s.block.memory.conflicts (byteRange w.addr w.beats) .write = false →
    s.block.memory.pickTag pick = some tag →
    let sent : Block := { s.block.setPort i { s.block.port i with
        buffer := match i, rest with
          | .system, v :: more => (if v.state = .waiting then { v with state := .ready } else v) :: more
          | _, _ => rest } with
      memory :=
        { table := s.block.memory.table ++
            [⟨tag, .upstream i w.stamp, w.master, w.addr, w.beats, .write, s.block.memory.responseLimit⟩]
          responseLimit := s.block.memory.responseLimit
          lastGrantee := portSource i
          sent := s.block.memory.sent ++ [⟨tag, w.master, w.addr, w.beats, .write,
            requestParity w.master w.addr w.beats .write,
            w.taken.map fun t => ⟨t.data, t.strobes, beatParity t.data, t.bad⟩⟩] } }
    let window : Range := ⟨s.block.decoder.windowBase.toNat, s.block.decoder.windowBase.toNat + 4095⟩
    let inWindow := (byteRange w.addr w.beats).overlaps window
    (inWindow = false → exec (.arbiterGrant pick segmentInHand) s = .next (s.withBlock sent))
    ∧ (inWindow = true → i = .capture → exec (.arbiterGrant pick segmentInHand) s =
        .next (s.withBlock (sent.report ⟨.cMailboxForeign, .minor, w.master, w.addr, 0⟩)))
    ∧ (inWindow = true → i = .system → (∃ t ∈ w.taken, t.bad = true) →
        exec (.arbiterGrant pick segmentInHand) s = .next (s.withBlock sent))
    ∧ (inWindow = true → i = .system → (∀ t ∈ w.taken, t.bad = false) →
        exec (.arbiterGrant pick segmentInHand) s =
          .next (s.withBlock (sent.decodeCopy (s.block.decoder.copyOf w) segmentInHand)))

/-- A grant sends the head read of an upstream port, when no source before the port in the cyclic order after the
last grantee presents a request, no write that the port took before it overlaps it, at the system port no write in
the internal queue that was taken before it overlaps it, and the head write may not go or was taken after it: it
leaves the read list and enters the outstanding table, and nothing else changes. While an older overlapping write is
in the buffer, or, at the system port, in the internal queue, no grant sends the head read or one behind it. A
producer word write that only waits for room at the internal master holds no read back (the model's choice, log entry
43) (R153, R154, R156, R158, R159, R161). -/
def Obligations.GrantForwardsTheHeadRead : Prop :=
  (∀ (s : State) (pick : Nat) (segmentInHand : Bool) (i : PortId) (r : ListedRead) (rest : List ListedRead)
    (tag : Nat),
    s.block.inTurn (portSource i) → (s.block.port i).reads = r :: rest →
    (∀ v ∈ (s.block.port i).buffer, v.stamp < r.stamp →
      (byteRange v.addr v.beats).overlaps (byteRange r.addr r.beats) = false) →
    (i = .system → ∀ q ∈ s.block.master.queue, q.stamp < r.stamp → q.work.direction = .write →
      (s.block.workRange q.work).overlaps (byteRange r.addr r.beats) = false) →
    (∀ w more, (s.block.port i).buffer = w :: more →
      w.state ≠ .ready ∨ r.stamp ≤ w.stamp ∨ 8 ≤ s.block.memory.outstanding (portSource i) .write
      ∨ s.block.memory.conflicts (byteRange w.addr w.beats) .write = true) →
    s.block.memory.outstanding (portSource i) .read < 16 →
    s.block.memory.conflicts (byteRange r.addr r.beats) .read = false →
    s.block.memory.pickTag pick = some tag →
    exec (.arbiterGrant pick segmentInHand) s = .next (s.withBlock
      { s.block.setPort i { s.block.port i with reads := rest } with
        memory :=
          { table := s.block.memory.table ++
              [⟨tag, .upstream i r.stamp, r.master, r.addr, r.beats, .read, s.block.memory.responseLimit⟩]
            responseLimit := s.block.memory.responseLimit
            lastGrantee := portSource i
            sent := s.block.memory.sent ++ [⟨tag, r.master, r.addr, r.beats, .read,
              requestParity r.master r.addr r.beats .read, []⟩] } }))
  ∧ (∀ (s : State) (pick : Nat) (segmentInHand : Bool) (i : PortId) (r : ListedRead) (rest : List ListedRead),
    (s.block.port i).reads = r :: rest →
    ((∃ v ∈ (s.block.port i).buffer, v.stamp < r.stamp
        ∧ (byteRange v.addr v.beats).overlaps (byteRange r.addr r.beats) = true)
      ∨ (i = .system ∧ ∃ q ∈ s.block.master.queue, q.stamp < r.stamp ∧ q.work.direction = .write
        ∧ (s.block.workRange q.work).overlaps (byteRange r.addr r.beats) = true)) →
    ∃ t, exec (.arbiterGrant pick segmentInHand) s = .next t ∧ (t.block.port i).reads = r :: rest)

/-- A grant sends the head of the internal queue, when no source before the internal master in the cyclic order after
the last grantee presents a request, with master ID 0xFF and no poison mark: a fetch read; a record's two beats with
every strobe set; a producer word at offset 0x138 of the window with its four strobes set; or the status block, whose
contents are the block as it stands with the sequence raised by 1. The 32 bytes of a record are those of R201's
tables, the 256 of the status block those of R203's, every byte of them; a byte string fills beats in address order
(R157, R158, R161, R174, R175, R194, R195, R196, R198, R201, R203; log entry 20). -/
def Obligations.GrantSendsInternalRequests : Prop :=
  (∀ (s : State) (pick : Nat) (segmentInHand : Bool) (n : Nat) (work : InternalWork)
    (rest : List InternalRequest) (tag : Nat),
    s.block.inTurn .internal → s.block.master.queue = ⟨n, work⟩ :: rest →
    s.block.memory.outstanding .internal .read + s.block.memory.outstanding .internal .write < 8 →
    s.block.memory.conflicts (s.block.workRange work) work.direction = false →
    s.block.memory.pickTag pick = some tag →
    let sequence := if work = .statusBlock then s.block.blockSequence + 1 else s.block.blockSequence
    let own := fun (strobes : BeatBits) (d : Beat) => (⟨d, strobes, beatParity d, false⟩ : SentBeat)
    let form : EntryOwner × Addr × BeatField × Direction × List SentBeat :=
      match work with
      | .fetch a beats => (.loader n, a, beats, .read, [])
      | .slotWrite a x y =>
        (.slotWrite n, a, 1, .write, [own (BitVec.allOnes 16) x, own (BitVec.allOnes 16) y])
      | .producerWord v => (.producerWord, s.block.decoder.windowBase + 0x138, 0, .write,
          [own 0x0F00 (BitVec.ofNat 128 (v.toNat * 2 ^ 64))])
      | .statusBlock => (.statusWriter, s.block.decoder.windowBase + 0x100, 15, .write,
          (packBeats 16 ({ s.block with blockSequence := sequence } : Block).statusBytes).map
            (own (BitVec.allOnes 16)))
    exec (.arbiterGrant pick segmentInHand) s = .next (s.withBlock
      { s.block with
        blockSequence := sequence
        master := { s.block.master with queue := rest }
        memory :=
          { table := s.block.memory.table ++
              [⟨tag, form.1, 0xFF, form.2.1, form.2.2.1, form.2.2.2.1, s.block.memory.responseLimit⟩]
            responseLimit := s.block.memory.responseLimit
            lastGrantee := .internal
            sent := s.block.memory.sent ++ [⟨tag, 0xFF, form.2.1, form.2.2.1, form.2.2.2.1,
              requestParity 0xFF form.2.1 form.2.2.1 form.2.2.2.1, form.2.2.2.2⟩] } }))
  ∧ (∀ r : RingRecord, r.bytes.length = 32 ∧ holdsRows r.bytes r.rows)
  ∧ (∀ b : Block, b.statusBytes.length = 256 ∧ holdsRows b.statusBytes b.statusRows)
  ∧ (∀ (bytes : List Byte) (n j : Nat), j < n →
    (packBeats n bytes)[j]? = some (BitVec.ofNat 128 (leNat ((bytes.drop (16 * j)).take 16))))
  ∧ ∀ (bytes : List Byte) (k : Nat) (x : Byte), k < 16 → bytes[k]? = some x →
    (BitVec.ofNat 128 (leNat (bytes.take 16))).extractLsb' (8 * k) 8 = x

/-- The arbiter grants the first source that presents a request in the cyclic order capture, system, internal after
the last grantee, so the last grantee comes last: it becomes the last grantee, and one request is sent, with the free
tag chosen (log entry 9). When no source presents one, or every tag is held, nothing happens. A port presents a
request when its head write is READY or no older overlapping write holds its head read back, and the source has room
in the outstanding table and the request conflicts with none there; the internal master presents the head of its
queue on the same terms. Two requests conflict when their byte ranges share a byte and one is a write; a byte range
ends with the last beat, or with the address space (R147, R153, R154, R156 to R161). -/
def Obligations.FirstPresentingSourceIsGranted : Prop :=
  (∀ (s : State) (pick : Nat) (segmentInHand : Bool),
    (∀ (src : Source) (tag : Nat), s.block.presents src ≠ none → s.block.memory.pickTag pick = some tag →
      s.block.inTurn src →
      ∃ t q, exec (.arbiterGrant pick segmentInHand) s = .next (s.withBlock t)
        ∧ t.memory.lastGrantee = src ∧ t.memory.sent = s.block.memory.sent ++ [q] ∧ q.tag = tag)
    ∧ ((∀ src, s.block.presents src = none) ∨ s.block.memory.pickTag pick = none →
      exec (.arbiterGrant pick segmentInHand) s = .next s))
  ∧ (∀ (m : MemoryPort) (pick : Nat),
    (∀ tag, m.pickTag pick = some tag → tag < 56 ∧ ∀ e ∈ m.table, e.tag ≠ tag)
    ∧ (m.pickTag pick = none ↔ ∀ tag < 56, ∃ e ∈ m.table, e.tag = tag))
  ∧ (∀ b : Block,
    let meets := fun (x y : Range) => x.lo ≤ y.hi ∧ y.lo ≤ x.hi
    let clear := fun (range : Range) (dir : Direction) => ∀ e ∈ b.memory.table,
      meets (byteRange e.addr e.beats) range → e.direction = .read ∧ dir = .read
    let held := fun (src : Source) (dir : Direction) => b.memory.table.countP fun e =>
      decide (e.direction = dir) && match e.owner, src with
        | .upstream .capture _, .capture => true
        | .upstream .system _, .system => true
        | .upstream _ _, _ => false
        | _, .internal => true
        | _, _ => false
    (∀ i, b.presents (portSource i) ≠ none ↔
      (∃ w rest, (b.port i).buffer = w :: rest ∧ w.state = .ready ∧ held (portSource i) .write < 8
        ∧ clear (byteRange w.addr w.beats) .write)
      ∨ (∃ r rest, (b.port i).reads = r :: rest ∧ held (portSource i) .read < 16
        ∧ clear (byteRange r.addr r.beats) .read
        ∧ (∀ w ∈ (b.port i).buffer, w.stamp < r.stamp →
          ¬ meets (byteRange w.addr w.beats) (byteRange r.addr r.beats))
        ∧ (i = .system → ∀ q ∈ b.master.queue, q.stamp < r.stamp → q.work.direction = .write →
          ¬ meets (b.workRange q.work) (byteRange r.addr r.beats))))
    ∧ (b.presents .internal ≠ none ↔ ∃ q rest, b.master.queue = q :: rest
      ∧ held .internal .read + held .internal .write < 8 ∧ clear (b.workRange q.work) q.work.direction))
  ∧ (∀ (addr : Addr) (beats : BeatField), byteRange addr beats =
    ⟨addr.toNat, min (2 ^ 40 - 1) (addr.toNat / 16 * 16 + 16 * (beats.toNat + 1) - 1)⟩)
  ∧ ∀ (b : Block) (work : InternalWork), b.workRange work = match work with
    | .fetch a beats => byteRange a beats
    | .slotWrite a _ _ => byteRange a 1
    | .producerWord _ => byteRange (b.decoder.windowBase + 0x138) 0
    | .statusBlock => byteRange (b.decoder.windowBase + 0x100) 15

/-- Each byte of the command slot that a copied write carries with its strobe set replaces that byte of the shadow,
and every other byte of the shadow stays; the consumer index word likewise, whatever else the write reaches. Bytes of
the first beat below the address count as carried (log entry 19). The decoder acts on a copy in this order: both
shadows; then, when a byte of the consumer word is enabled, all that CONSUMER_UPDATE does with it; then, when a byte
of the kind word is enabled and the kind word of the shadow, the copy merged in, is not 0, the command it names is
taken, with the arguments of the whole shadow, whichever write left them there, and does all that its row does, once.
The rows' statements say what that is (R183, R184, R187, R188, R202). -/
def Obligations.CopyFollowsTheStrobes : Prop :=
  (∀ (b : Block) (w : BufferedWrite) (k : Nat) (a : Nat) (old : Byte),
    (k < 64 → a = b.decoder.windowBase.toNat + k → b.decoder.slot[k]? = some old →
      (b.mergeCopy (b.decoder.copyOf w)).decoder.slot[k]? = some
        (if (byteRange w.addr w.beats).overlaps ⟨b.decoder.windowBase.toNat, b.decoder.windowBase.toNat + 63⟩
            ∧ w.addr.toNat / 16 ≤ a / 16 then
          match w.taken[a / 16 - w.addr.toNat / 16]? with
          | some t => if t.strobes.getLsbD (a % 16) then t.data.extractLsb' (8 * (a % 16)) 8 else old
          | none => old
        else old))
    ∧ (k < 4 → a = b.decoder.windowBase.toNat + 0x40 + k → b.decoder.consumerWord[k]? = some old →
      (b.mergeCopy (b.decoder.copyOf w)).decoder.consumerWord[k]? = some
        (if (byteRange w.addr w.beats).overlaps
              ⟨b.decoder.windowBase.toNat + 0x40, b.decoder.windowBase.toNat + 0x43⟩
            ∧ w.addr.toNat / 16 ≤ a / 16 then
          match w.taken[a / 16 - w.addr.toNat / 16]? with
          | some t => if t.strobes.getLsbD (a % 16) then t.data.extractLsb' (8 * (a % 16)) 8 else old
          | none => old
        else old)))
  ∧ (∀ (b : Block) (w : BufferedWrite),
    (b.decoder.copyOf w).master = w.master ∧ (b.decoder.copyOf w).addr = w.addr)
  ∧ (∀ (b : Block) (c : MailboxCopy), b.mergeCopy c = { b with decoder := { b.decoder with
      slot := Vector.ofFn fun k => (c.slot[k]).getD b.decoder.slot[k]
      consumerWord := Vector.ofFn fun k => (c.word[k]).getD b.decoder.consumerWord[k] } })
  ∧ ∀ (s : State) (c : MailboxCopy) (segmentInHand : Bool) (t : Block),
    let merged : Block := { s.block with decoder := { s.block.decoder with
      slot := Vector.ofFn fun k => (c.slot[k]).getD s.block.decoder.slot[k] } }
    let enablesWord := ∃ k : Fin 4, (c.word[k]).isSome = true
    let enablesKind := ∃ k : Fin 64, k.val < 4 ∧ (c.slot[k]).isSome = true
    (¬ enablesWord → t = merged) →
    (enablesWord → exec (.consumerUpdate c.master c.addr c.word) (s.withBlock merged) = .next (s.withBlock t)) →
    let result := s.block.decodeCopy c segmentInHand
    (¬ enablesKind ∨ fieldAt t.decoder.slot.toList 0 4 = 0 → result = t)
    ∧ (enablesKind → fieldAt t.decoder.slot.toList 0 4 ≠ 0 →
      exec (slotCommand t.decoder.slot segmentInHand) (s.withBlock t) = .next (s.withBlock result))

/-- A response to a forwarded request removes its table entry and answers the port with it: OKAY, or ERROR, which is also
reported M_PASS_ERROR with the request's master ID and address; a read's data beats are passed on, a write's answer has
none. A response, or an expiry (log entry 2), whose tag names no entry changes nothing (R139, R142, R149, R162). -/
def Obligations.ResponseAnswersTheForwardedRequest : Prop :=
    (∀ (s : State) (tag stamp : Nat) (data : List Beat) (i : PortId) (before after : List TableEntry)
      (e : TableEntry),
      s.block.memory.table = before ++ e :: after → (s.block.memory.table.map (·.tag)).Nodup → e.tag = tag →
      e.owner = .upstream i stamp → (e.direction = .read → data.length = beatCount e.beats) →
      let answered := fun (resp : Response) =>
        ({ s.block with memory := { s.block.memory with table := before ++ after } } : Block).setPort i
          ((s.block.port i).answer stamp resp (if e.direction = .read then data else []))
      exec (.memoryResponse tag .okay data) s = .next (s.withBlock (answered .okay))
      ∧ exec (.memoryResponse tag .error data) s =
          .next (s.withBlock ((answered .error).report ⟨.mPassError, .minor, e.master, e.addr, 0⟩)))
    ∧ (∀ (s : State) (tag : Nat) (resp : Response) (data : List Beat),
      (∀ e ∈ s.block.memory.table, e.tag ≠ tag) →
      exec (.memoryResponse tag resp data) s = .next s ∧ exec (.responseTimerExpiry tag) s = .next s)

/-- When a response timer expires, the request is removed and M_TIMEOUT reported with its master ID and address. A
forwarded request is answered ERROR, a read with zeros; a status or producer word write has no other effect. The read
of a load in progress ends that load with FETCH_ERROR, the bank EMPTY, the index that of the failed read; a read of a
load already ended has no other effect. The slot write in progress has failed: its record is dropped and counted, the
producer index stands, a held consumer update is applied and RING_IRQ follows; a slot write given up has no other
effect (R12, R140, R141, R173, R176, R178). What is left of the timer passes for every timer and a DEAD interval (log
entry 3). -/
def Obligations.ExpiredTimerRetiresTheRequest : Prop :=
  ∀ (s : State) (before after : List TableEntry) (e : TableEntry),
    s.block.memory.table = before ++ e :: after → (s.block.memory.table.map (·.tag)).Nodup →
    let aged := fun (x : TableEntry) => { x with timer := x.timer - e.timer }
    let retired : Block := { s.block with
      memory := { s.block.memory with table := before.map aged ++ after.map aged }
      line := { s.block.line with driver :=
        match s.block.line.driver with
        | .dead line left pending => .dead line (left - e.timer) pending
        | d => d } }
    let reported := retired.report ⟨.mTimeout, .degraded, e.master, e.addr, 0⟩
    let result := exec (.responseTimerExpiry e.tag) s
    (∀ i stamp, e.owner = .upstream i stamp →
      result = .next (s.withBlock (reported.setPort i
        ((s.block.port i).answer stamp .error
          (if e.direction = .read then List.replicate (beatCount e.beats) 0 else [])))))
    ∧ (e.owner = .producerWord ∨ e.owner = .statusWriter → result = .next (s.withBlock reported))
    ∧ (∀ n, e.owner = .loader n →
      (∀ i l read, s.block.store.bank i = .loading l → (s.block.store.bank i.other).load? = none →
        l.outstanding = some read → read.stamp = n →
        result = .next (s.withBlock (reported.loadEnded i .fetchError (l.failIndex read.offset))))
      ∧ ((∀ i l read, s.block.store.bank i = .loading l → l.outstanding = some read → read.stamp ≠ n) →
        result = .next (s.withBlock reported)))
    ∧ (∀ n, e.owner = .slotWrite n →
      (∀ ring, s.block.writer.slotWrite = some n → s.block.writer.ring = some ring →
        result = .next (s.withBlock (({ reported with writer := { reported.writer with
          queue := reported.writer.queue.tail
          drops := min 4294967295 (reported.writer.drops + 1) } } : Block).slotWriteEnded ring)))
      ∧ (s.block.writer.slotWrite ≠ some n → result = .next (s.withBlock reported)))

/-- OKAY to the slot write in progress: the record leaves the output queue, the producer index goes up by 1, and its
word is written: the new value replaces that of a producer word write pending in the internal master's queue, or of
one that waits for room there; otherwise it is handed over, or waits for room (log entry 29). Then the slot write has
ended: a held consumer update is applied against the new producer index, and RING_IRQ follows. ERROR: M_OWN_ERROR is
reported (log entry 18), the record is dropped and counted, the producer index stands, and the slot write has ended
in the same way. The response to a slot write given up changes nothing but the table, and an ERROR is still reported
(R141, R173, R175, R176, R178, R179). -/
def Obligations.SlotWriteEndsAsItsResponse : Prop :=
  ∀ (s : State) (data : List Beat) (before after : List TableEntry) (e : TableEntry) (n : Nat),
    s.block.memory.table = before ++ e :: after → (s.block.memory.table.map (·.tag)).Nodup →
    e.owner = .slotWrite n →
    let removed : Block := { s.block with memory := { s.block.memory with table := before ++ after } }
    let reported := removed.report ⟨.mOwnError, .degraded, e.master, e.addr, 0⟩
    (∀ ring, s.block.writer.slotWrite = some n → s.block.writer.ring = some ring →
      let value := s.block.writer.producer + 1
      let isWord := fun (w : Waiter) => match w with
        | .producerWord _ => true
        | _ => false
      let queue := s.block.master.queue.map fun q =>
        if q.work.isProducerWord then { q with work := .producerWord value } else q
      let waiters := s.block.master.waiters.map fun w => if isWord w then .producerWord value else w
      let master : InternalMaster × Nat :=
        if s.block.master.queue.any (·.work.isProducerWord) then ({ s.block.master with queue := queue }, s.block.stamp)
        else if s.block.master.waiters.any isWord then ({ s.block.master with waiters := waiters }, s.block.stamp)
        else if s.block.master.queue.length < 8 ∧ s.block.master.waiters = [] then
          (⟨s.block.master.queue ++ [⟨s.block.stamp, .producerWord value⟩], []⟩, s.block.stamp + 1)
        else ({ s.block.master with waiters := s.block.master.waiters ++ [.producerWord value] }, s.block.stamp)
      exec (.memoryResponse e.tag .okay data) s = .next (s.withBlock (({ removed with
        master := master.1
        stamp := master.2
        writer := { s.block.writer with
          queue := s.block.writer.queue.tail
          producer := value } } : Block).slotWriteEnded ring))
      ∧ exec (.memoryResponse e.tag .error data) s = .next (s.withBlock (({ reported with
        writer := { reported.writer with
          queue := reported.writer.queue.tail
          drops := min 4294967295 (reported.writer.drops + 1) } } : Block).slotWriteEnded ring)))
    ∧ (s.block.writer.slotWrite ≠ some n →
      exec (.memoryResponse e.tag .okay data) s = .next (s.withBlock removed)
      ∧ exec (.memoryResponse e.tag .error data) s = .next (s.withBlock reported))

/-- ERROR to the fetch read of the load in progress, in whichever bank it is: M_OWN_ERROR is reported (log entry 18),
and the load ends with FETCH_ERROR, its index 0 for the header, otherwise the table index of the item that holds the
read's first byte (log entry 40); the bank is EMPTY. OKAY takes the data to validation: while more is needed the bank
keeps what has passed; a failed check ends the load with its outcome and index, the bank EMPTY; the last joint
passed, the bank is READY and the record LOADED when the frame window meets neither the mailbox window nor the ring,
and otherwise the load ends with WINDOW_OVERLAP. A response to a read of a load already ended, whether or not another
load is in progress, changes nothing but the table, and an ERROR is still reported (R12, R13, R17, R141). -/
def Obligations.FetchReadEndsAsItsResponse : Prop :=
  ∀ (s : State) (data : List Beat) (before after : List TableEntry) (e : TableEntry) (n : Nat),
    s.block.memory.table = before ++ e :: after → (s.block.memory.table.map (·.tag)).Nodup → e.owner = .loader n →
    let removed : Block := { s.block with memory := { s.block.memory with table := before ++ after } }
    let reported := removed.report ⟨.mOwnError, .degraded, e.master, e.addr, 0⟩
    ((∀ i l read, s.block.store.bank i = .loading l → l.outstanding = some read → read.stamp ≠ n) →
      exec (.memoryResponse e.tag .okay data) s = .next (s.withBlock removed)
      ∧ exec (.memoryResponse e.tag .error data) s = .next (s.withBlock reported))
    ∧ ∀ (i : BankId) (l : Load) (read : FetchRead),
      s.block.store.bank i = .loading l → (s.block.store.bank i.other).load? = none →
      l.outstanding = some read → read.stamp = n →
      exec (.memoryResponse e.tag .error data) s =
        .next (s.withBlock (reported.loadEnded i .fetchError (l.failIndex read.offset)))
      ∧ l.failIndex read.offset = (match l.header with
        | none => 0
        | some h =>
          if read.offset < 64 then 0
          else if read.offset < 64 + 16 * h.recipeCount then (read.offset - 64) / 16
          else (read.offset - 64 - 16 * h.recipeCount) / 24)
      ∧ (e.direction = .read → data.length = beatCount e.beats →
        let validated :=
          ({ l with received := l.received ++ data.flatMap beatBytes, outstanding := none } : Load).validate
        let result := exec (.memoryResponse e.tag .okay data) s
        (∀ more, validated = .more more → result = .next (s.withBlock { removed with
          store := s.block.store.setBank i (.loading more) }))
        ∧ (∀ outcome index, validated = .failed outcome index →
          result = .next (s.withBlock (removed.loadEnded i outcome index)))
        ∧ ∀ p, validated = .passed p →
          let meets := p.header.window.overlaps s.block.decoder.window = true
            ∨ ∃ ring, s.block.writer.ring = some ring ∧ p.header.window.overlaps ring.range = true
          (¬ meets → result = .next (s.withBlock { removed.askRewrite with
            store := { s.block.store.setBank i (.ready p) with
              record := ⟨s.block.store.record.target, some .loaded, 0⟩ } }))
          ∧ (meets → result = .next (s.withBlock (removed.loadEnded i .windowOverlap 0))))

/-- The checks of the header come in their order, and a failed one ends the load with its outcome and index 0: FORMAT
when the format number is not 7 or a count is out of range, then GEOMETRY, then LANES; when all pass the header is
held, lane k as the bytes at 32 + 8k give it. Then each recipe is checked as it stands complete, RECIPE with its
index when a threshold is out of range; and after the last recipe each joint, JOINT_ORDER, JOINT_RANGE and GAP in
that order with its index. An item that passes is held, and the check goes on with what was received behind it; the
last joint passed, the program is complete. Every field is little-endian (R14, R16; with R13, R15, R198 and R200). -/
def Obligations.ImageChecksComeInOrder : Prop :=
  (∀ l : Load, l.header = none → 64 ≤ l.received.length →
    let recipes := fieldAt l.received 25 1
    let joints := fieldAt l.received 26 2
    let format := fieldAt l.received 0 4 = 7 ∧ 1 ≤ recipes ∧ recipes ≤ 64 ∧ 1 ≤ joints ∧ joints ≤ 4096
    let base := fieldAt l.received 8 8
    let width := fieldAt l.received 16 2
    let height := fieldAt l.received 18 2
    let pitch := fieldAt l.received 20 4
    let geometry := base % 16 = 0 ∧ 1 ≤ width ∧ width ≤ 8192 ∧ 1 ≤ height ∧ height ≤ 32768 ∧ pitch % 16 = 0
      ∧ width * 4 ≤ pitch ∧ pitch ≤ 65536 ∧ base + height * pitch - 1 < 2 ^ 40
    let count := fieldAt l.received 24 1
    let first := fun k => fieldAt l.received (32 + 8 * k + 2) 2
    let last := fun k => fieldAt l.received (32 + 8 * k + 4) 2
    let master := fun k => fieldAt l.received (32 + 8 * k) 1
    let lanes := 1 ≤ count ∧ count ≤ 4 ∧ (∀ k < count, first k ≤ last k ∧ last k < width)
      ∧ (∀ k, k + 1 < count → last k < first (k + 1)) ∧ ∀ j < count, ∀ k < count, master j = master k → j = k
    (¬ format → l.validate = .failed .format 0)
    ∧ (format → ¬ geometry → l.validate = .failed .geometry 0)
    ∧ (format → geometry → ¬ lanes → l.validate = .failed .lanes 0)
    ∧ (format → geometry → lanes → ∃ h, l.validate =
        .more { l with header := some h, received := l.received.drop 64 }
      ∧ h.programId.toNat = fieldAt l.received 4 4 ∧ h.base.toNat = base ∧ h.width = width ∧ h.height = height
      ∧ h.pitch = pitch ∧ h.recipeCount = recipes ∧ h.jointCount = joints ∧ h.lanes.length = count
      ∧ ∀ k < count, ∃ lane, h.lanes[k]? = some lane ∧ lane.master.toNat = master k ∧ lane.first = first k
        ∧ lane.last = last k))
  ∧ (∀ (l : Load) (h : Header), l.header = some h → l.recipes.length < h.recipeCount →
    (l.received.length < 16 → l.validate = .more l)
    ∧ (16 ≤ l.received.length →
      let field := fun offset => fieldAt l.received offset 2
      let good := field 0 ≤ 3069 ∧ field 2 ≤ 3069 ∧ ∀ offset ∈ [4, 6, 8, 10, 12], field offset ≤ 256
      (¬ good → l.validate = .failed .recipe l.recipes.length)
      ∧ (good → ∃ r : Recipe, l.validate =
          ({ l with recipes := l.recipes ++ [r], received := l.received.drop 16 } : Load).validate
        ∧ r.darkSum = field 0 ∧ r.brightMin = field 2 ∧ r.minValid = field 4 ∧ r.satMax = field 6
        ∧ r.darkMax = field 8 ∧ r.slopeMin = field 10 ∧ r.steepMax = field 12
        ∧ r.margin = fieldAt l.received 14 1 ∧ r.bridgeRows = fieldAt l.received 15 1)))
  ∧ (∀ (l : Load) (h : Header), l.header = some h → h.recipeCount ≤ l.recipes.length →
    (l.received.length < 24 → l.validate = .more l)
    ∧ (24 ≤ l.received.length →
      let field := fun offset => fieldAt l.received offset 2
      let region : Rect := ⟨field 2, field 4, field 6, field 8⟩
      let gap : Rect := ⟨field 14, field 16, field 18, field 20⟩
      let recipe := fieldAt l.received 10 1
      let weight := fieldAt l.received 11 1
      let inOrder := ∀ j, l.joints.getLast? = some j → j.region.y0 ≤ region.y0
      let inRange := region.x0 ≤ region.x1 ∧ region.y0 ≤ region.y1 ∧ region.x1 < h.width ∧ region.y1 < h.height
        ∧ region.x1 - region.x0 + 1 ≤ 256 ∧ region.y1 - region.y0 + 1 ≤ 256
        ∧ (∀ x, region.x0 ≤ x → x ≤ region.x1 → ∃ lane ∈ h.lanes, lane.first ≤ x ∧ x ≤ lane.last)
        ∧ recipe < h.recipeCount ∧ (weight = 1 ∨ weight = 2)
      let hasGap := fieldAt l.received 12 1 % 2 = 1
      let gapGood := gap.x0 ≤ gap.x1 ∧ gap.y0 ≤ gap.y1 ∧ gap.x1 < h.width ∧ gap.y1 < h.height
        ∧ gap.x1 - gap.x0 + 1 ≤ 64 ∧ gap.y1 - gap.y0 + 1 ≤ 256
        ∧ (∃ lane ∈ h.lanes, lane.first ≤ gap.x0 ∧ gap.x0 ≤ lane.last ∧ lane.first ≤ gap.x1 ∧ gap.x1 ≤ lane.last)
        ∧ region.y0 ≤ gap.y0
      (¬ inOrder → l.validate = .failed .jointOrder l.joints.length)
      ∧ (inOrder → ¬ inRange → l.validate = .failed .jointRange l.joints.length)
      ∧ (inOrder → inRange → hasGap → ¬ gapGood → l.validate = .failed .gap l.joints.length)
      ∧ (inOrder → inRange → (hasGap → gapGood) →
        let joint : Joint := ⟨BitVec.ofNat 16 (field 0), region, recipe,
          if weight = 1 then .critical else .advisory, if hasGap then some gap else none⟩
        (l.joints.length + 1 < h.jointCount → l.validate =
          ({ l with joints := l.joints ++ [joint], received := l.received.drop 24 } : Load).validate)
        ∧ (h.jointCount ≤ l.joints.length + 1 → l.validate = .passed ⟨h, l.recipes, l.joints ++ [joint]⟩))))
  ∧ ∀ (bytes : List Byte) (offset size : Nat), fieldAt bytes offset size =
    ((List.range size).map fun k => ((bytes[offset + k]?).getD 0).toNat * 256 ^ k).sum

/-! ### Owners of internal requests -/

/-- FETCH_READ_ISSUE hands the next read of the load, in whichever bank it is, to an internal master with room: four
beats at the program address for the header, later 16 beats or what is left of the image, at the first byte not yet
read. RING_SLOT_WRITE hands the head record, as the two beats of its bytes (GrantSendsInternalRequests says which),
to the slot of the producer index, when the occupancy is below the size, no slot write is in progress and no producer
word write waits; the record stays at the head. Without room each begins to wait. INTERNAL_HANDOVER gives each place
that is free to the owner that has waited longest, until none is free or none waits: a status rewrite or a producer
word is handed over; a loader its next read, a record writer its slot write, tested again at the hand-over (log entry
21), and one whose read or record is no longer due waits no more (R11, R157, R174; log entry 29). -/
def Obligations.OwnersHandOverInTheOrderOfTheirWaits : Prop :=
  let beats := fun (l : Load) => match l.header with
    | none => 4
    | some h => min 16 ((64 + 16 * h.recipeCount + 24 * h.jointCount - l.nextOffset + 15) / 16)
  let places := fun (b : Block) (work : InternalWork) => { b with
    master := { b.master with queue := b.master.queue ++ [⟨b.stamp, work⟩] }
    stamp := b.stamp + 1 }
  let fetches := fun (b : Block) (i : BankId) (l : Load) =>
    { places b (.fetch (BitVec.ofNat 40 (l.address.toNat + l.nextOffset)) (BitVec.ofNat 4 (beats l - 1))) with
      store := b.store.setBank i (.loading { l with
        outstanding := some ⟨b.stamp, l.nextOffset⟩, nextOffset := l.nextOffset + 16 * beats l }) }
  let writes := fun (b : Block) (ring : Ring) (r : RingRecord) =>
    { places b (.slotWrite
        (ring.base + BitVec.ofNat 40 (32 * (b.writer.producer.toNat % ring.size)))
        (BitVec.ofNat 128 (leNat (r.bytes.take 16))) (BitVec.ofNat 128 (leNat ((r.bytes.drop 16).take 16)))) with
      writer := { b.writer with slotWrite := some b.stamp } }
  let fetchDue := fun (b : Block) (i : BankId) (l : Load) => b.store.bank i = .loading l
    ∧ (b.store.bank i.other).load? = none ∧ l.outstanding = none ∧ l.address.toNat + l.nextOffset < 2 ^ 40
    ∧ 1 ≤ beats l
  let writeDue := fun (b : Block) (ring : Ring) (r : RingRecord) => b.writer.ring = some ring
    ∧ b.writer.queue.head? = some r ∧ b.writer.slotWrite = none
    ∧ (b.writer.producer - b.writer.consumer).toNat < ring.size ∧ ∀ v, .producerWord v ∉ b.master.waiters
  (∀ (s : State) (i : BankId) (l : Load), fetchDue s.block i l →
    (s.block.master.queue.length < 8 → s.block.master.waiters = [] →
      exec .fetchReadIssue s = .next (s.withBlock (fetches s.block i l)))
    ∧ (8 ≤ s.block.master.queue.length ∨ s.block.master.waiters ≠ [] → .fetch ∉ s.block.master.waiters →
      exec .fetchReadIssue s = .next (s.withBlock { s.block with
        master := { s.block.master with waiters := s.block.master.waiters ++ [.fetch] } })))
  ∧ (∀ (s : State) (ring : Ring) (r : RingRecord), writeDue s.block ring r →
    (s.block.master.queue.length < 8 → s.block.master.waiters = [] →
      exec .ringSlotWrite s = .next (s.withBlock (writes s.block ring r)))
    ∧ (8 ≤ s.block.master.queue.length ∨ s.block.master.waiters ≠ [] → .slotWrite ∉ s.block.master.waiters →
      exec .ringSlotWrite s = .next (s.withBlock { s.block with
        master := { s.block.master with waiters := s.block.master.waiters ++ [.slotWrite] } })))
  ∧ (∀ s : State, s.block.master.waiters = [] ∨ 8 ≤ s.block.master.queue.length →
    exec .internalHandover s = .next s)
  ∧ (∀ (s : State) (w : Waiter) (rest : List Waiter),
    s.block.master.waiters = w :: rest → s.block.master.queue.length < 8 →
    let b : Block := { s.block with master := { s.block.master with waiters := rest } }
    let goesOn := fun (t : Block) => exec .internalHandover s = exec .internalHandover (s.withBlock t)
      ∧ (t.master.waiters = [] ∨ 8 ≤ t.master.queue.length → exec .internalHandover s = .next (s.withBlock t))
    (w = .statusBlock → goesOn (places b .statusBlock))
    ∧ (∀ v, w = .producerWord v → goesOn (places b (.producerWord v)))
    ∧ (w = .fetch →
      (∀ i l, fetchDue b i l → goesOn (fetches b i l))
      ∧ ((∀ i l, b.store.bank i = .loading l → l.outstanding ≠ none) → goesOn b))
    ∧ (w = .slotWrite →
      (∀ ring r, writeDue b ring r → goesOn (writes b ring r))
      ∧ ((∀ ring r, ¬ writeDue b ring r) → goesOn b)))

/-- A block that asks for a status rewrite: nothing more is handed over while a status write waits in the queue or
for room; otherwise it is handed over when there is room and no owner waits, and waits when there is none (R194; log
entry 29). -/
def Obligations.RewriteIsAskedForOnce : Prop :=
  ∀ b : Block,
    ((∃ q ∈ b.master.queue, q.work = .statusBlock) ∨ Waiter.statusBlock ∈ b.master.waiters → b.askRewrite = b)
    ∧ ((∀ q ∈ b.master.queue, q.work ≠ .statusBlock) → Waiter.statusBlock ∉ b.master.waiters →
      (b.master.queue.length < 8 → b.master.waiters = [] → b.askRewrite = { b with
        master := ⟨b.master.queue ++ [⟨b.stamp, .statusBlock⟩], []⟩, stamp := b.stamp + 1 })
      ∧ (8 ≤ b.master.queue.length ∨ b.master.waiters ≠ [] → b.askRewrite = { b with
        master := { b.master with waiters := b.master.waiters ++ [.statusBlock] } }))

/-! ### Mailbox -/

/-- A copied write to the command slot that takes no command changes the slot shadow by its enabled bytes and nothing
else (R183, R184). -/
def Obligations.ShadowWriteChangesTheShadowAlone : Prop :=
  ∀ (s : State) (bytes : Vector (Option Byte) 64), (Instr.mailboxShadowWrite bytes).wellFormed = true →
    exec (.mailboxShadowWrite bytes) s = .next (s.withBlock { s.block with
      decoder := { s.block.decoder with slot := Vector.ofFn fun k => (bytes[k]).getD s.block.decoder.slot[k] } })

/-- A copied write to the consumer index word changes its shadow by the enabled bytes, and hands the shadow's value v to
the record writer: ignored without a ring; held, in place of any held before, while a slot write is in progress;
otherwise taken when producer minus v, as an unsigned 32-bit number, is at most the size, and else clamped to the
producer index with S_CONSUMER_RANGE; RING_IRQ follows (R177, R178, R179, R187). -/
def Obligations.ConsumerUpdateIsAppliedHeldOrClamped : Prop :=
  ∀ (s : State) (master : MasterId) (addr : Addr) (bytes : Vector (Option Byte) 4),
    (Instr.consumerUpdate master addr bytes).wellFormed = true →
    let word : Vector Byte 4 := Vector.ofFn fun k => (bytes[k]).getD s.block.decoder.consumerWord[k]
    let v : Counter := BitVec.ofNat 32 (word[0].toNat + 256 * (word[1].toNat + 256 * (word[2].toNat
      + 256 * word[3].toNat)))
    let merged : Block := { s.block with decoder := { s.block.decoder with consumerWord := word } }
    let result := exec (.consumerUpdate master addr bytes) s
    (s.block.writer.ring = none → result = .next (s.withBlock merged))
    ∧ ∀ ring, s.block.writer.ring = some ring →
      (s.block.writer.slotWrite ≠ none → result = .next (s.withBlock { merged with
        writer := { s.block.writer with heldUpdate := some ⟨v, master, addr⟩ } }))
      ∧ (s.block.writer.slotWrite = none → (s.block.writer.producer - v).toNat ≤ ring.size →
        result = .next (s.withBlock { merged with writer := { s.block.writer with
          consumer := v, ringIrq := ring.irqOn && decide (s.block.writer.producer ≠ v) } }))
      ∧ (s.block.writer.slotWrite = none → ring.size < (s.block.writer.producer - v).toNat →
        result = .next (s.withBlock (({ merged with writer := { s.block.writer with
          consumer := s.block.writer.producer, ringIrq := false } } : Block).report
            ⟨.sConsumerRange, .minor, master, addr, 0⟩)))

/-- LOAD_PROGRAM with a good address while no bank is LOADING: the READY bank, else the bank that is not ACTIVE, else bank 0
becomes LOADING; the record keeps only the target; STARTED. ABORT_LOAD while a bank is LOADING: that bank becomes EMPTY, the
record takes ABORTED with index 0, a loader that waited for room waits no more; DONE (R8, R9, R11, R185). -/
def Obligations.LoadCommandsStartAndStopALoad : Prop :=
    (∀ (s : State) (address : BitVec 64), s.block.store.bank0.load? = none → s.block.store.bank1.load? = none →
      address.toNat % 16 = 0 → address.toNat < 2 ^ 40 →
      let target : BankId :=
        if s.block.store.bank0.ready?.isSome then .bank0
        else if s.block.store.bank1.ready?.isSome then .bank1
        else if s.block.store.bank0.active?.isSome then .bank1
        else .bank0
      let load : Bank := .loading ⟨BitVec.ofNat 40 address.toNat, none, [], [], [], 0, none⟩
      exec (.loadProgram address) s = .next (s.withBlock { s.block.askRewrite with
        decoder := s.block.decoder.took 1 [⟨8, 8, address.toNat⟩] .started
        store :=
          { bank0 := if target = .bank0 then load else s.block.store.bank0
            bank1 := if target = .bank1 then load else s.block.store.bank1
            record := ⟨some target, none, 0⟩ } }))
    ∧ (∀ (s : State) (l : Load),
      let stopped := ({ s.block with master :=
        { s.block.master with waiters := s.block.master.waiters.filter (· ≠ .fetch) } } : Block).askRewrite
      let decoder := s.block.decoder.took 2 [] .done
      let record : LoadRecord := ⟨s.block.store.record.target, some .aborted, 0⟩
      (s.block.store.bank0 = .loading l → exec .abortLoad s = .next (s.withBlock { stopped with
        decoder := decoder, store := { s.block.store with bank0 := .empty, record := record } }))
      ∧ (s.block.store.bank0.load? = none → s.block.store.bank1 = .loading l →
        exec .abortLoad s = .next (s.withBlock { stopped with
          decoder := decoder, store := { s.block.store with bank1 := .empty, record := record } })))

/-- SET_RING with good arguments, no ring configured or the one configured empty: the ring is configured, both
indices and the consumer shadow are 0, a held update and a slot write in progress are given up, RING_IRQ is inactive;
the output queue stays; the outcome is DONE. A status write already queued ahead of a pending producer word write
serves the take's rewrite, and none is handed over behind the word (the model's choice, log entry 42) (R172, R173,
R185). -/
def Obligations.SetRingConfiguresAnEmptyRing : Prop :=
  ∀ (s : State) (base : BitVec 64) (size : BitVec 32) (irq : Byte),
    s.block.RingInRange base.toNat size.toNat irq.toNat →
    (s.block.writer.ring = none ∨ s.block.writer.producer = s.block.writer.consumer) →
    exec (.setRing base size irq) s = .next (s.withBlock { s.block.askRewrite with
      decoder := { s.block.decoder.took 3
          [⟨8, 8, base.toNat⟩, ⟨16, 4, size.toNat⟩, ⟨20, 1, irq.toNat⟩] .done with
        consumerWord := Vector.replicate 4 0 }
      writer := { s.block.writer with
        ring := some ⟨BitVec.ofNat 40 base.toNat, size.toNat, decide (irq = 1)⟩
        producer := 0
        consumer := 0
        slotWrite := none
        heldUpdate := none
        ringIrq := false } })

/-- SET_LINE with arguments in range, an empty board queue, and KEEP in HELD: every setting takes its argument, the
configuration is valid, and the gate mode becomes the one named unless it is KEEP. A change from ACTIVE to OFF lets
the gate driver go: an active line goes inactive into DEAD with the new dead time, a pending action is discarded, and
the owner's late note, if it says DRIVEN, says CUT; otherwise the driver stays as it stands. The outcome is DONE
(R118, R190, R191; log entries 25, 34). -/
def Obligations.SetLineTakesEverySetting : Prop :=
  ∀ (s : State) (a : LineArgs), lineInRange a → s.block.line.queue = [] →
    (s.block.line.gateMode = .held → a.gateMode = 0) →
    let off := s.block.line.gateMode = .active ∧ a.gateMode = 1
    exec (.setLine a) s = .next (s.withBlock { s.block.askRewrite with
      decoder := s.block.decoder.took 4 (lineFields a) .done
      line := { s.block.line with
        gateMode := if a.gateMode = 1 then .off else if a.gateMode = 2 then .active else s.block.line.gateMode
        driver := if off then
            match s.block.line.driver with
            | .idle => .idle
            | .driving kind _ _ => if a.deadTime = 0 then .idle else .dead kind a.deadTime.toNat none
            | .dead line left _ => .dead line left none
          else s.block.line.driver
        lateNote := if off then
            match s.block.line.driver with
            | .driving _ _ (some o) => s.block.line.noteChanged o .cut
            | .dead _ _ (some (.action _ _ o)) => s.block.line.noteChanged o .cut
            | _ => s.block.line.lateNote
          else s.block.line.lateNote
        config :=
          { valid := true
            diverter := a.diverter.toNat
            window := a.window.toNat
            deadTime := a.deadTime.toNat
            timeout := a.timeout.toNat
            sense := if a.direction = 0 then .normal else .reversed
            polarity := if a.edge = 0 then .rising else .falling
            report := if a.report = 0 then .all else if a.report = 1 then .defects else .none
            holdOnContain := a.holds.getLsbD 0
            holdOnTimeout := a.holds.getLsbD 1
            holdOnLate := a.holds.getLsbD 2 } } })

/-- SET_PORT_POLICY that names a port, a policy and a fail response: the port takes both, the memory port takes the limit
unless it is 0, containment, the requests already taken and the timers already running stay; the outcome is DONE. One with
an argument that names nothing changes nothing but for what every command take does; BAD_ARGUMENT (R164). -/
def Obligations.SetPortPolicySetsThePort : Prop :=
    (∀ (s : State) (port policy fail : Byte) (limit : BitVec 16),
      ¬ ((port = 1 ∨ port = 2) ∧ (policy = 0 ∨ policy = 1) ∧ (fail = 0 ∨ fail = 1)) →
      exec (.setPortPolicy port policy fail limit) s = .next (s.withBlock { s.block.askRewrite with
        decoder := s.block.decoder.took 5
          [⟨4, 1, port.toNat⟩, ⟨5, 1, policy.toNat⟩, ⟨6, 1, fail.toNat⟩, ⟨8, 2, limit.toNat⟩] .badArgument }))
    ∧ ∀ (s : State) (port policy fail : Byte) (limit : BitVec 16) (i : PortId) (p : Policy) (f : FailResponse),
    (port, i) ∈ [((1 : Byte), PortId.capture), (2, .system)] →
    (policy, p) ∈ [((0 : Byte), Policy.mark), (1, .contain)] →
    (fail, f) ∈ [((0 : Byte), FailResponse.allOnes), (1, .error)] →
    exec (.setPortPolicy port policy fail limit) s = .next (s.withBlock
      { s.block.askRewrite.setPort i { s.block.port i with policy := p, failResponse := f } with
        memory := { s.block.memory with
          responseLimit := if limit = 0 then s.block.memory.responseLimit else limit.toNat }
        decoder := s.block.decoder.took 5
          [⟨4, 1, port.toNat⟩, ⟨5, 1, policy.toNat⟩, ⟨6, 1, fail.toNat⟩, ⟨8, 2, limit.toNat⟩] .done })

/-- CLEAR_LOG that names a source empties that log and clears its flag, hands on no notice and undoes no action; DONE. One
that names none: BAD_ARGUMENT, and no log changes. RESUME_PORT that names neither port: BAD_ARGUMENT; that names a port
whose log holds a FATAL error: WRONG_STATE, the port unchanged; otherwise the port is OPEN and otherwise unchanged, nothing
else of the part changes; DONE (R128, R137). -/
def Obligations.ClearLogAndResumePortRecover : Prop :=
    (∀ (s : State) (code : Byte) (src : LogSource),
      (code, src) ∈ [((1 : Byte), LogSource.capture), (2, .system), (3, .memory), (4, .line)] →
      exec (.clearLog code) s = .next (s.withBlock { s.block.askRewrite with
        logs :=
          { capture := if src = .capture then ⟨none, false⟩ else s.block.logs.capture
            system := if src = .system then ⟨none, false⟩ else s.block.logs.system
            memory := if src = .memory then ⟨none, false⟩ else s.block.logs.memory
            line := if src = .line then ⟨none, false⟩ else s.block.logs.line }
        decoder := s.block.decoder.took 6 [⟨4, 1, code.toNat⟩] .done }))
    ∧ (∀ (s : State) (code : Byte) (i : PortId),
      (code, i) ∈ [((1 : Byte), PortId.capture), (2, .system)] →
      (i = .capture → ∀ e, s.block.logs.capture.held = some e → e.severity ≠ .fatal) →
      (i = .system → ∀ e, s.block.logs.system.held = some e → e.severity ≠ .fatal) →
      exec (.resumePort code) s = .next (s.withBlock
        { s.block.askRewrite.setPort i { s.block.port i with containment := .opened } with
          decoder := s.block.decoder.took 7 [⟨4, 1, code.toNat⟩] .done }))
    ∧ (∀ (s : State) (code : Byte), code ≠ 1 → code ≠ 2 → code ≠ 3 → code ≠ 4 →
      exec (.clearLog code) s = .next (s.withBlock { s.block.askRewrite with
        decoder := s.block.decoder.took 6 [⟨4, 1, code.toNat⟩] .badArgument }))
    ∧ (∀ (s : State) (code : Byte), code ≠ 1 → code ≠ 2 →
      exec (.resumePort code) s = .next (s.withBlock { s.block.askRewrite with
        decoder := s.block.decoder.took 7 [⟨4, 1, code.toNat⟩] .badArgument }))
    ∧ (∀ (s : State) (code : Byte) (e : LoggedError), e.severity = .fatal →
      (code = 1 ∧ s.block.logs.capture.held = some e) ∨ (code = 2 ∧ s.block.logs.system.held = some e) →
      exec (.resumePort code) s = .next (s.withBlock { s.block.askRewrite with
        decoder := s.block.decoder.took 7 [⟨4, 1, code.toNat⟩] .wrongState }))

/-- RELEASE_GATE in HELD: the gate mode is ACTIVE; a reject line driven without an end goes inactive into DEAD, a pending
hold is discarded; the outcome is DONE. Outside HELD nothing changes but for what every command take does;
WRONG_STATE (R120, R145). -/
def Obligations.ReleaseGateLeavesHeld : Prop :=
    (∀ s : State, s.block.line.gateMode ≠ .held →
      exec .releaseGate s = .next (s.withBlock { s.block.askRewrite with
        decoder := s.block.decoder.took 8 [] .wrongState }))
    ∧ ∀ s : State, s.block.line.gateMode = .held →
    exec .releaseGate s = .next (s.withBlock { s.block.askRewrite with
      decoder := s.block.decoder.took 8 [] .done
      line := { s.block.line with
        gateMode := .active
        driver := match s.block.line.driver with
          | .driving .reject none _ =>
            if s.block.line.config.deadTime = 0 then .idle else .dead .reject s.block.line.config.deadTime none
          | .dead line left (some .hold) => .dead line left none
          | d => d } })

/-- INSPECTION_RESET. When it is taken: frame IDLE with its number kept, joint set, tally and board queue cleared,
the late note removed, the gate driver let go unless the gate is HELD; a load in progress, in whichever bank, ends
with ABORTED and its bank is EMPTY, the other bank kept; the reset cause is COMMAND, and a rewrite is asked for; the
ports, the memory path, the record writer and the logs are untouched. With the flag clear, no segment in hand and the
frame not CLOSING it is taken at once; the outcome is DONE. In CLOSING, or with a segment in hand, the flag is set
and the outcome is STARTED. A SEGMENT of a burst in progress, and a CLOSING without one, do with the flag set what
they do with it clear; then the reset is taken at the end of CLOSING, and after a SEGMENT that leaves the frame OPEN;
after one that leaves it CLOSING the flag stays set (R21, R44, R79, R96, R122, R181, R192, R193). The operand says
whether a segment is in hand (log entry 10). -/
def Obligations.InspectionResetClearsTheInspection : Prop :=
  let cleared := fun (b : Block) => { b with
    tracker := ⟨.idle, b.tracker.number, none, 0, none, [], none⟩
    joints := ⟨[], 0⟩
    tally := ⟨⟨0, 0, 0, 0, 0, 0⟩, false, 0⟩
    line := { b.line with
      queue := []
      lateNote := none
      driver := if b.line.gateMode = .held then b.line.driver else
        match b.line.driver with
        | .idle => .idle
        | .driving kind _ _ => if b.line.config.deadTime = 0 then .idle else .dead kind b.line.config.deadTime none
        | .dead line left _ => .dead line left none }
    decoder := { b.decoder with resetPending := false, resetCause := .command } }
  let takes := fun (b t : Block) =>
    (b.store.bank0.load? = none → b.store.bank1.load? = none → t = cleared b.askRewrite)
    ∧ ∀ i l, b.store.bank i = .loading l → (b.store.bank i.other).load? = none →
      t = cleared (b.loadEnded i .aborted 0)
  let flagged := fun (s : State) (flag : Bool) =>
    s.withBlock { s.block with decoder := { s.block.decoder with resetPending := flag } }
  (∀ (s : State) (inHand : Bool), s.block.decoder.resetPending = false →
    let segmentInHand := s.block.tracker.state = .opened ∧ inHand = true
      ∧ ∃ burst seg rest, s.block.tracker.burst = some burst ∧ burst.segments = seg :: rest
    (s.block.tracker.state ≠ .closing → ¬ segmentInHand →
      ∃ t, takes { s.block with decoder := s.block.decoder.took 9 [] .done } t
        ∧ exec (.inspectionReset inHand) s = .next (s.withBlock t))
    ∧ (s.block.tracker.state = .closing ∨ segmentInHand →
      exec (.inspectionReset inHand) s = .next (s.withBlock { s.block.askRewrite with
        decoder := { s.block.decoder.took 9 [] .started with resetPending := true } })))
  ∧ (∀ s : State, s.block.decoder.resetPending = true → s.block.tracker.burst ≠ none →
    s.block.store.activeProgram ≠ none →
    ∃ t, exec .segment (flagged s false) = .next t
      ∧ (t.block.tracker.state = .opened → ∃ r, takes t.block r ∧ exec .segment s = .next (s.withBlock r))
      ∧ (t.block.tracker.state ≠ .opened → exec .segment s = .next (flagged t true)))
  ∧ (∀ s : State, s.block.decoder.resetPending = true → s.block.tracker.state = .closing →
    s.block.tracker.burst = none →
    ∃ t r, exec .closing (flagged s false) = .next t ∧ takes t.block r ∧ exec .closing s = .next (s.withBlock r))

/-- Every command row is counted and recorded: the write's bytes in the shadow, the count raised by 1, the kind and the
outcome. One that is refused with BUSY, BAD_ARGUMENT, WRONG_STATE or UNKNOWN_KIND changes nothing else but for the
status rewrite; a kind with no known code is one of them (R185, R186). A row's write carries the kind word and the argument
bytes of R202 (log entry 32). -/
def Obligations.RefusedCommandsAreStillCounted : Prop :=
  ∀ (s : State) (c : Instr) (kind : Nat) (fields : List SlotField),
    commandRow c = some (kind, fields) → c.wellFormed = true →
    ∃ t, exec c s = .next (s.withBlock t)
      ∧ t.decoder.slot = mergeShadow s.block.decoder.slot (commandBytes kind fields)
      ∧ t.decoder.commandCount = s.block.decoder.commandCount + 1
      ∧ t.decoder.lastKind = BitVec.ofNat 32 kind
      ∧ (∀ k, c = .unknownKind k → t.decoder.lastOutcome = .unknownKind)
      ∧ (t.decoder.lastOutcome.refuses = true → t = { s.block.askRewrite with
          decoder := s.block.decoder.took kind fields t.decoder.lastOutcome })

/-- The owner decides each command's outcome in the order of its rule (R8, R9, R128, R137, R145, R164, R172, R190),
and the mailbox decoder that of INSPECTION_RESET: BUSY while a reset is pending, STARTED in CLOSING or with a segment
in hand, which the operand says (log entry 10), and otherwise DONE (R192). -/
def Obligations.OwnersDecideOutcomesInOrder : Prop :=
  ∀ (s t : State),
    (∀ address, exec (.loadProgram address) s = .next t → t.block.decoder.lastOutcome =
      if s.block.store.bank0.load?.isSome ∨ s.block.store.bank1.load?.isSome then .busy
      else if address.toNat % 16 ≠ 0 ∨ 2 ^ 40 ≤ address.toNat then .badArgument else .started)
    ∧ (exec .abortLoad s = .next t → t.block.decoder.lastOutcome =
      if s.block.store.bank0.load?.isSome ∨ s.block.store.bank1.load?.isSome then .done else .wrongState)
    ∧ (∀ base size irq, exec (.setRing base size irq) s = .next t →
      (¬ s.block.RingInRange base.toNat size.toNat irq.toNat → t.block.decoder.lastOutcome = .badArgument)
      ∧ (s.block.RingInRange base.toNat size.toNat irq.toNat → t.block.decoder.lastOutcome =
        if s.block.writer.ring ≠ none ∧ s.block.writer.producer ≠ s.block.writer.consumer then .wrongState
        else .done))
    ∧ (∀ a, exec (.setLine a) s = .next t →
      (¬ lineInRange a → t.block.decoder.lastOutcome = .badArgument)
      ∧ (lineInRange a → t.block.decoder.lastOutcome =
        if s.block.line.queue ≠ [] ∨ (s.block.line.gateMode = .held ∧ a.gateMode ≠ 0) then .wrongState else .done))
    ∧ (∀ port policy fail limit, exec (.setPortPolicy port policy fail limit) s = .next t →
      t.block.decoder.lastOutcome =
        if (port = 1 ∨ port = 2) ∧ policy.toNat ≤ 1 ∧ fail.toNat ≤ 1 then .done else .badArgument)
    ∧ (∀ code, exec (.clearLog code) s = .next t → t.block.decoder.lastOutcome =
      if 1 ≤ code.toNat ∧ code.toNat ≤ 4 then .done else .badArgument)
    ∧ (∀ code, exec (.resumePort code) s = .next t →
      (code ≠ 1 → code ≠ 2 → t.block.decoder.lastOutcome = .badArgument)
      ∧ (code = 1 → t.block.decoder.lastOutcome =
        if s.block.logs.capture.level = 3 then .wrongState else .done)
      ∧ (code = 2 → t.block.decoder.lastOutcome =
        if s.block.logs.system.level = 3 then .wrongState else .done))
    ∧ (exec .releaseGate s = .next t → t.block.decoder.lastOutcome =
      if s.block.line.gateMode = .held then .done else .wrongState)
    ∧ (∀ inHand, exec (.inspectionReset inHand) s = .next t → t.block.decoder.lastOutcome =
      if s.block.decoder.resetPending then .busy
      else if s.block.tracker.state = .closing ∨ (inHand = true ∧ s.block.tracker.state = .opened
          ∧ s.block.tracker.burst.any (fun burst => !burst.segments.isEmpty) = true) then .started
      else .done)

/-! ### Error logs -/

/-- A report into a log: an empty log takes it, a held error gives way to a strictly more severe one with the flag
kept, and otherwise the flag is set. A take and a replacement hand the record writer one notice result, queued while
the output queue holds fewer than 32 records and otherwise dropped and counted, and ask for a rewrite; a first
overflow asks for a rewrite alone; a later one changes nothing. The other logs are untouched. Whatever the log did,
the report is then followed by the action of R127 and by nothing else: the port is contained for bad request parity
and for bad data parity at FATAL, and gate hold is triggered by L_QUEUE_FULL and, when enabled, by L_FRAME_TIMEOUT
and L_LATE. A gate hold trigger changes nothing in HELD; otherwise the gate mode is HELD and the driver drives the
reject line without an end, or has the hold pending, a rewrite is asked for, and the late note of a board whose
action is cut or gives way to the hold changes as log entry 34 has it (R119, R125, R126, R127, R144). -/
def Obligations.LogTakesReplacesOrOverflows : Prop :=
  (∀ (b : Block) (e : LoggedError),
    let log := b.logs.log e.code.source
    let t := b.logError e
    let noticed := fun (replacement : Bool) =>
      t.logs = b.logs.setLog e.code.source ⟨some e, log.overflow⟩
      ∧ (b.writer.queue.length < 32 → t.writer =
          { b.writer with queue := b.writer.queue ++ [.notice ⟨e, replacement, log.overflow⟩] })
      ∧ (32 ≤ b.writer.queue.length → t.writer =
          { b.writer with drops := min 4294967295 (b.writer.drops + 1) })
      ∧ t.master = b.askRewrite.master ∧ t.stamp = b.askRewrite.stamp
      ∧ t = { b with logs := t.logs, writer := t.writer, master := t.master, stamp := t.stamp }
    (log.held = none → noticed false)
    ∧ ∀ held, log.held = some held →
      (held.severity.code < e.severity.code → noticed true)
      ∧ (e.severity.code ≤ held.severity.code → log.overflow = false →
        t = { b.askRewrite with logs := b.logs.setLog e.code.source ⟨some held, true⟩ })
      ∧ (e.severity.code ≤ held.severity.code → log.overflow = true → t = b))
  ∧ (∀ (b : Block) (e : LoggedError),
    let fatal := e.severity = .fatal
    let contains := fun (i : PortId) => match i with
      | .capture => e.code = .cAddrParity ∨ (e.code = .cDataParity ∧ fatal)
      | .system => e.code = .sAddrParity ∨ (e.code = .sDataParity ∧ fatal)
    let holds := e.code = .lQueueFull ∨ (e.code = .lFrameTimeout ∧ b.line.config.holdOnTimeout = true)
      ∨ (e.code = .lLate ∧ b.line.config.holdOnLate = true)
    (∀ i, contains i → b.report e = (b.logError e).containPort i)
    ∧ (holds → b.report e = (b.logError e).triggerHold)
    ∧ ((∀ i, ¬ contains i) → ¬ holds → b.report e = b.logError e))
  ∧ ∀ b : Block,
    (b.line.gateMode = .held → b.triggerHold = b)
    ∧ (b.line.gateMode ≠ .held → b.triggerHold = { b.askRewrite with line := { b.line with
        gateMode := .held
        driver := match b.line.driver with
          | .idle => .driving .reject none none
          | .driving .reject _ o => .driving .reject none o
          | .driving .pass _ _ =>
            if b.line.config.deadTime = 0 then .driving .reject none none
            else .dead .pass b.line.config.deadTime (some .hold)
          | .dead line left _ => .dead line left (some .hold)
        lateNote := match b.line.driver with
          | .driving .pass _ (some o) => b.line.noteChanged o .cut
          | .dead _ _ (some (.action _ _ o)) => b.line.noteChanged o .forced
          | _ => b.line.lateNote } })

/-! ### Rules over every command -/

/-- The encoder position changes by an ENCODER_STEP, by 1 up or down, and by a full reset, which sets it to 0; by no other
command (R97, R99, R100). -/
def Obligations.PositionMovesByEncoderStepsOnly : Prop :=
  ∀ (c : Instr) (s t : State), exec c s = .next t →
    t.block.line.position = s.block.line.position
    ∨ (∃ a b, c = .encoderStep a b ∧ (t.block.line.position = s.block.line.position + 1
        ∨ t.block.line.position = s.block.line.position - 1))
    ∨ ∃ kind straps contain, c = .fullReset kind straps contain ∧ t.block.line.position = 0

/-- Until CLEAR_LOG or a full reset the severity held by an error log never decreases: not by any other well-formed
command, nor by a grant that takes no CLEAR_LOG (R125). -/
def Obligations.LogSeverityNeverDecreases : Prop :=
  ∀ (c : Instr) (s t : State) (src : LogSource), c.wellFormed = true → exec c s = .next t →
    (∀ kind straps contain, c ≠ .fullReset kind straps contain) → (∀ code, c ≠ .clearLog code) →
    (∀ pick inHand, c = .arbiterGrant pick inHand →
      t.block.decoder.commandCount = s.block.decoder.commandCount ∨ t.block.decoder.lastKind ≠ 6) →
    (s.block.logs.log src).level ≤ (t.block.logs.log src).level

/-- A request is sent to memory by ARBITER_GRANT alone, one at a time, at the end of those sent before (R150, R154, R157,
R161). The list of requests sent is the model's own record (log entry 13). -/
def Obligations.OnlyGrantsSendRequests : Prop :=
  ∀ (c : Instr) (s t : State), exec c s = .next t →
    t.block.memory.sent = s.block.memory.sent
    ∨ ∃ pick inHand q, c = .arbiterGrant pick inHand ∧ t.block.memory.sent = s.block.memory.sent ++ [q]

/-- Of each master ID and direction, the requests still open and the answers given at a port together are conserved
by every command but a full reset, which abandons every request: their number changes only when the port takes a
request of that master ID and direction, and then by 1; and the answers given stay as they were. The state's ports
are sound, so a decided answer carries its request's master ID and direction (R149, R155, R165; log entry 13). -/
def Obligations.RequestsAndAnswersAreConserved : Prop :=
  ∀ (c : Instr) (s t : State) (i : PortId), s.block.PortsSound → exec c s = .next t →
    (∀ kind straps contain, c ≠ .fullReset kind straps contain) →
    (∃ more, (t.block.port i).given = (s.block.port i).given ++ more)
    ∧ ∀ (master : MasterId) (dir : Direction),
      let total := fun (p : Port) => p.unanswered.countP (·.sameKind master dir)
        + p.given.countP fun a => a.master == master && a.direction == dir
      total (t.block.port i) = total (s.block.port i)
      ∨ (total (t.block.port i) = total (s.block.port i) + 1
        ∧ ∃ r : Request, r.master = master
          ∧ ((dir = .write ∧ c = .writeRequest i r) ∨ (dir = .read ∧ c = .readRequest i r)))

/-- The ACTIVE program does not change while the frame is OPEN or CLOSING, by any command but a full reset (R6, R18). -/
def Obligations.ActiveProgramStaysDuringAFrame : Prop :=
  ∀ (c : Instr) (s t : State), s.block.store.BanksSound → s.block.tracker.state ≠ .idle → exec c s = .next t →
    (∀ kind straps contain, c ≠ .fullReset kind straps contain) →
    t.block.store.activeProgram = s.block.store.activeProgram

/-- PASS_GATE and REJECT_GATE: with a dead time above 0, a gate line becomes active in a step only from IDLE, from a DEAD
interval of the same line, or when a DEAD interval ends (R112, R115, R116). -/
def Obligations.OtherGateWaitsForTheDeadTime : Prop :=
  ∀ (c : Instr) (s t : State), exec c s = .next t → s.block.line.config.deadTime ≠ 0 →
    (t.block.line.driver.passGate = true → s.block.line.driver.passGate = false →
      s.block.line.driver = .idle ∨ (∃ left pending, s.block.line.driver = .dead .pass left pending)
      ∨ ((∃ left pending, s.block.line.driver = .dead .reject left pending) ∧ c = .deadTimeEnd))
    ∧ (t.block.line.driver.rejectGate = true → s.block.line.driver.rejectGate = false →
      s.block.line.driver = .idle ∨ (∃ left pending, s.block.line.driver = .dead .reject left pending)
      ∨ ((∃ left pending, s.block.line.driver = .dead .pass left pending) ∧ c = .deadTimeEnd))

/-! ### Invariants that every step keeps -/

/-- The buffers, queues, counters, the memory response limit and the settings of a valid line configuration stay
within the sizes and ranges the spec gives them (R64, R97, R98, R101, R104, R140, R148, R157, R167, R170). -/
def Obligations.EveryStepKeepsCountsBounded : Prop :=
  ∀ s t : State, s.block.CountsBounded → step s = .next t → t.block.CountsBounded

/-- The ring never holds more records than its size, a slot write in progress has a free slot, and RING_IRQ is active
exactly when it should be (R167, R174, R179). -/
def Obligations.EveryStepKeepsTheRingSound : Prop :=
  ∀ s t : State, s.block.writer.RingSound → step s = .next t → t.block.writer.RingSound

/-- The gate mode is HELD exactly while the gate driver holds the gate (R119, R120, R144). -/
def Obligations.EveryStepKeepsTheHoldSound : Prop :=
  ∀ s t : State, s.block.line.HoldSound → step s = .next t → t.block.line.HoldSound

/-- Tags are held once, every source keeps to its share, and no two conflicting requests are outstanding (R158 to
R160). -/
def Obligations.EveryStepKeepsTheTableSound : Prop :=
  ∀ s t : State, s.block.memory.TableSound → step s = .next t → t.block.memory.TableSound

/-- The banks keep to R6 and the frame and the open joint set to R22, R59, R62 and R78. -/
def Obligations.EveryStepKeepsTheFrameSound : Prop :=
  ∀ s t : State, s.block.FrameSound → step s = .next t → t.block.FrameSound

/-- Serials stand in the order of entry, every due position is one diverter distance on, and an IMAGING board is the one
bound to the frame (R36, R98, R102, R104). -/
def Obligations.EveryStepKeepsTheBoardQueueSound : Prop :=
  ∀ s t : State, s.block.QueueSound → step s = .next t → t.block.QueueSound

/-- Write buffers, containment and the order of answers stay as R130, R134, R135, R149 and R150 have them. -/
def Obligations.EveryStepKeepsThePortsSound : Prop :=
  ∀ s t : State, s.block.PortsSound → step s = .next t → t.block.PortsSound

/-- Every usable program has passed every check and meets neither the mailbox window nor the ring (R5, R13, R17, R172). -/
def Obligations.EveryStepKeepsUsableProgramsSound : Prop :=
  ∀ s t : State, s.block.store.BanksSound → s.block.ProgramsSound → step s = .next t → t.block.ProgramsSound

/-- A held error has a code of its log's source with a severity of that code, and an empty log has its flag clear (R123,
R124, R125). -/
def Obligations.EveryStepKeepsTheLogsSound : Prop :=
  ∀ s t : State, s.block.logs.Sound → step s = .next t → t.block.logs.Sound

/-- The block after FULL_RESET of either kind, with every strap and whatever the state before, the gate driver then
IDLE or DEAD, meets every invariant; and so does the block of `State.reset`, which is that of power-on with the
straps of log entry 4, the reset's rewrite already queued, with no command waiting (R121, R165, R167, R196). -/
def Obligations.ResetMeetsEveryInvariant : Prop :=
  let sound := fun (b : Block) => b.CountsBounded ∧ b.writer.RingSound ∧ b.line.HoldSound ∧ b.memory.TableSound
    ∧ b.FrameSound ∧ b.QueueSound ∧ b.PortsSound ∧ b.ProgramsSound ∧ b.logs.Sound
  (∀ (s : State) (kind : FullResetKind) (mbxSel : BitVec 3) (imgContain : Bool),
    ∃ t, exec (.fullReset kind mbxSel imgContain) s = .next t ∧ sound t.block)
  ∧ sound State.reset.block ∧ State.reset = ⟨Block.fresh .power 0 (strapPolicy false), []⟩
end

