-- ==== Sys2Proof/Laws/State.lean ====
section
/-! SUPPORT. What each plain update of the block leaves as it was: one lemma per field per update, by `rfl`. -/

namespace Sys2Proof.Machine

variable (b : Block)

/-! ### `Block.enqueue` -/

@[simp] theorem Block.enqueue_capture (w : InternalWork) : (b.enqueue w).capture = b.capture :=
  rfl
@[simp] theorem Block.enqueue_system (w : InternalWork) : (b.enqueue w).system = b.system := rfl
@[simp] theorem Block.enqueue_memory (w : InternalWork) : (b.enqueue w).memory = b.memory := rfl
@[simp] theorem Block.enqueue_decoder (w : InternalWork) : (b.enqueue w).decoder = b.decoder :=
  rfl
@[simp] theorem Block.enqueue_store (w : InternalWork) : (b.enqueue w).store = b.store := rfl
@[simp] theorem Block.enqueue_tracker (w : InternalWork) : (b.enqueue w).tracker = b.tracker :=
  rfl
@[simp] theorem Block.enqueue_joints (w : InternalWork) : (b.enqueue w).joints = b.joints := rfl
@[simp] theorem Block.enqueue_tally (w : InternalWork) : (b.enqueue w).tally = b.tally := rfl
@[simp] theorem Block.enqueue_line (w : InternalWork) : (b.enqueue w).line = b.line := rfl
@[simp] theorem Block.enqueue_writer (w : InternalWork) : (b.enqueue w).writer = b.writer := rfl
@[simp] theorem Block.enqueue_logs (w : InternalWork) : (b.enqueue w).logs = b.logs := rfl
@[simp] theorem Block.enqueue_blockSequence (w : InternalWork) : (b.enqueue w).blockSequence = b.blockSequence :=
  rfl

/-! ### `Block.wait` -/

@[simp] theorem Block.wait_capture (w : Waiter) : (b.wait w).capture = b.capture := rfl
@[simp] theorem Block.wait_system (w : Waiter) : (b.wait w).system = b.system := rfl
@[simp] theorem Block.wait_memory (w : Waiter) : (b.wait w).memory = b.memory := rfl
@[simp] theorem Block.wait_decoder (w : Waiter) : (b.wait w).decoder = b.decoder := rfl
@[simp] theorem Block.wait_store (w : Waiter) : (b.wait w).store = b.store := rfl
@[simp] theorem Block.wait_tracker (w : Waiter) : (b.wait w).tracker = b.tracker := rfl
@[simp] theorem Block.wait_joints (w : Waiter) : (b.wait w).joints = b.joints := rfl
@[simp] theorem Block.wait_tally (w : Waiter) : (b.wait w).tally = b.tally := rfl
@[simp] theorem Block.wait_line (w : Waiter) : (b.wait w).line = b.line := rfl
@[simp] theorem Block.wait_writer (w : Waiter) : (b.wait w).writer = b.writer := rfl
@[simp] theorem Block.wait_logs (w : Waiter) : (b.wait w).logs = b.logs := rfl
@[simp] theorem Block.wait_blockSequence (w : Waiter) : (b.wait w).blockSequence = b.blockSequence :=
  rfl
@[simp] theorem Block.wait_stamp (w : Waiter) : (b.wait w).stamp = b.stamp := rfl

/-! ### `Block.nextStamp` -/

@[simp] theorem Block.nextStamp_capture : (b.nextStamp).capture = b.capture := rfl
@[simp] theorem Block.nextStamp_system : (b.nextStamp).system = b.system := rfl
@[simp] theorem Block.nextStamp_memory : (b.nextStamp).memory = b.memory := rfl
@[simp] theorem Block.nextStamp_master : (b.nextStamp).master = b.master := rfl
@[simp] theorem Block.nextStamp_decoder : (b.nextStamp).decoder = b.decoder := rfl
@[simp] theorem Block.nextStamp_store : (b.nextStamp).store = b.store := rfl
@[simp] theorem Block.nextStamp_tracker : (b.nextStamp).tracker = b.tracker := rfl
@[simp] theorem Block.nextStamp_joints : (b.nextStamp).joints = b.joints := rfl
@[simp] theorem Block.nextStamp_tally : (b.nextStamp).tally = b.tally := rfl
@[simp] theorem Block.nextStamp_line : (b.nextStamp).line = b.line := rfl
@[simp] theorem Block.nextStamp_writer : (b.nextStamp).writer = b.writer := rfl
@[simp] theorem Block.nextStamp_logs : (b.nextStamp).logs = b.logs := rfl
@[simp] theorem Block.nextStamp_blockSequence : (b.nextStamp).blockSequence = b.blockSequence :=
  rfl

/-! ### `Block.setSample` -/

@[simp] theorem Block.setSample_capture (x : Bool × Bool) : (b.setSample x).capture = b.capture :=
  rfl
@[simp] theorem Block.setSample_system (x : Bool × Bool) : (b.setSample x).system = b.system :=
  rfl
@[simp] theorem Block.setSample_memory (x : Bool × Bool) : (b.setSample x).memory = b.memory :=
  rfl
@[simp] theorem Block.setSample_master (x : Bool × Bool) : (b.setSample x).master = b.master :=
  rfl
@[simp] theorem Block.setSample_decoder (x : Bool × Bool) : (b.setSample x).decoder = b.decoder :=
  rfl
@[simp] theorem Block.setSample_store (x : Bool × Bool) : (b.setSample x).store = b.store := rfl
@[simp] theorem Block.setSample_tracker (x : Bool × Bool) : (b.setSample x).tracker = b.tracker :=
  rfl
@[simp] theorem Block.setSample_joints (x : Bool × Bool) : (b.setSample x).joints = b.joints :=
  rfl
@[simp] theorem Block.setSample_tally (x : Bool × Bool) : (b.setSample x).tally = b.tally := rfl
@[simp] theorem Block.setSample_writer (x : Bool × Bool) : (b.setSample x).writer = b.writer :=
  rfl
@[simp] theorem Block.setSample_logs (x : Bool × Bool) : (b.setSample x).logs = b.logs := rfl
@[simp] theorem Block.setSample_blockSequence (x : Bool × Bool) : (b.setSample x).blockSequence = b.blockSequence :=
  rfl
@[simp] theorem Block.setSample_stamp (x : Bool × Bool) : (b.setSample x).stamp = b.stamp := rfl

/-! ### `Block.settleEdge` -/

@[simp] theorem Block.settleEdge_capture (x : Bool) : (b.settleEdge x).capture = b.capture := rfl
@[simp] theorem Block.settleEdge_system (x : Bool) : (b.settleEdge x).system = b.system := rfl
@[simp] theorem Block.settleEdge_memory (x : Bool) : (b.settleEdge x).memory = b.memory := rfl
@[simp] theorem Block.settleEdge_master (x : Bool) : (b.settleEdge x).master = b.master := rfl
@[simp] theorem Block.settleEdge_decoder (x : Bool) : (b.settleEdge x).decoder = b.decoder := rfl
@[simp] theorem Block.settleEdge_store (x : Bool) : (b.settleEdge x).store = b.store := rfl
@[simp] theorem Block.settleEdge_tracker (x : Bool) : (b.settleEdge x).tracker = b.tracker := rfl
@[simp] theorem Block.settleEdge_joints (x : Bool) : (b.settleEdge x).joints = b.joints := rfl
@[simp] theorem Block.settleEdge_tally (x : Bool) : (b.settleEdge x).tally = b.tally := rfl
@[simp] theorem Block.settleEdge_writer (x : Bool) : (b.settleEdge x).writer = b.writer := rfl
@[simp] theorem Block.settleEdge_logs (x : Bool) : (b.settleEdge x).logs = b.logs := rfl
@[simp] theorem Block.settleEdge_blockSequence (x : Bool) : (b.settleEdge x).blockSequence = b.blockSequence :=
  rfl
@[simp] theorem Block.settleEdge_stamp (x : Bool) : (b.settleEdge x).stamp = b.stamp := rfl

/-! ### `Block.setProgress` -/

@[simp] theorem Block.setProgress_capture (k : Nat) (q : LaneProgress) : (b.setProgress k q).capture = b.capture :=
  rfl
@[simp] theorem Block.setProgress_system (k : Nat) (q : LaneProgress) : (b.setProgress k q).system = b.system :=
  rfl
@[simp] theorem Block.setProgress_memory (k : Nat) (q : LaneProgress) : (b.setProgress k q).memory = b.memory :=
  rfl
@[simp] theorem Block.setProgress_master (k : Nat) (q : LaneProgress) : (b.setProgress k q).master = b.master :=
  rfl
@[simp] theorem Block.setProgress_decoder (k : Nat) (q : LaneProgress) : (b.setProgress k q).decoder = b.decoder :=
  rfl
@[simp] theorem Block.setProgress_store (k : Nat) (q : LaneProgress) : (b.setProgress k q).store = b.store :=
  rfl
@[simp] theorem Block.setProgress_joints (k : Nat) (q : LaneProgress) : (b.setProgress k q).joints = b.joints :=
  rfl
@[simp] theorem Block.setProgress_tally (k : Nat) (q : LaneProgress) : (b.setProgress k q).tally = b.tally :=
  rfl
@[simp] theorem Block.setProgress_line (k : Nat) (q : LaneProgress) : (b.setProgress k q).line = b.line :=
  rfl
@[simp] theorem Block.setProgress_writer (k : Nat) (q : LaneProgress) : (b.setProgress k q).writer = b.writer :=
  rfl
@[simp] theorem Block.setProgress_logs (k : Nat) (q : LaneProgress) : (b.setProgress k q).logs = b.logs :=
  rfl
@[simp] theorem Block.setProgress_blockSequence (k : Nat) (q : LaneProgress) : (b.setProgress k q).blockSequence = b.blockSequence :=
  rfl
@[simp] theorem Block.setProgress_stamp (k : Nat) (q : LaneProgress) : (b.setProgress k q).stamp = b.stamp :=
  rfl

/-! ### `Block.mapRecords` -/

@[simp] theorem Block.mapRecords_capture (f : Accumulator → Accumulator) : (b.mapRecords f).capture = b.capture :=
  rfl
@[simp] theorem Block.mapRecords_system (f : Accumulator → Accumulator) : (b.mapRecords f).system = b.system :=
  rfl
@[simp] theorem Block.mapRecords_memory (f : Accumulator → Accumulator) : (b.mapRecords f).memory = b.memory :=
  rfl
@[simp] theorem Block.mapRecords_master (f : Accumulator → Accumulator) : (b.mapRecords f).master = b.master :=
  rfl
@[simp] theorem Block.mapRecords_decoder (f : Accumulator → Accumulator) : (b.mapRecords f).decoder = b.decoder :=
  rfl
@[simp] theorem Block.mapRecords_store (f : Accumulator → Accumulator) : (b.mapRecords f).store = b.store :=
  rfl
@[simp] theorem Block.mapRecords_tracker (f : Accumulator → Accumulator) : (b.mapRecords f).tracker = b.tracker :=
  rfl
@[simp] theorem Block.mapRecords_tally (f : Accumulator → Accumulator) : (b.mapRecords f).tally = b.tally :=
  rfl
@[simp] theorem Block.mapRecords_line (f : Accumulator → Accumulator) : (b.mapRecords f).line = b.line :=
  rfl
@[simp] theorem Block.mapRecords_writer (f : Accumulator → Accumulator) : (b.mapRecords f).writer = b.writer :=
  rfl
@[simp] theorem Block.mapRecords_logs (f : Accumulator → Accumulator) : (b.mapRecords f).logs = b.logs :=
  rfl
@[simp] theorem Block.mapRecords_blockSequence (f : Accumulator → Accumulator) : (b.mapRecords f).blockSequence = b.blockSequence :=
  rfl
@[simp] theorem Block.mapRecords_stamp (f : Accumulator → Accumulator) : (b.mapRecords f).stamp = b.stamp :=
  rfl

/-! ### `Block.setCaptureHead` -/

@[simp] theorem Block.setCaptureHead_system (w : BufferedWrite) (rest : List BufferedWrite) (x : WriteState) (i : Bool) : (b.setCaptureHead w rest x i).system = b.system :=
  rfl
@[simp] theorem Block.setCaptureHead_memory (w : BufferedWrite) (rest : List BufferedWrite) (x : WriteState) (i : Bool) : (b.setCaptureHead w rest x i).memory = b.memory :=
  rfl
@[simp] theorem Block.setCaptureHead_master (w : BufferedWrite) (rest : List BufferedWrite) (x : WriteState) (i : Bool) : (b.setCaptureHead w rest x i).master = b.master :=
  rfl
@[simp] theorem Block.setCaptureHead_decoder (w : BufferedWrite) (rest : List BufferedWrite) (x : WriteState) (i : Bool) : (b.setCaptureHead w rest x i).decoder = b.decoder :=
  rfl
@[simp] theorem Block.setCaptureHead_store (w : BufferedWrite) (rest : List BufferedWrite) (x : WriteState) (i : Bool) : (b.setCaptureHead w rest x i).store = b.store :=
  rfl
@[simp] theorem Block.setCaptureHead_tracker (w : BufferedWrite) (rest : List BufferedWrite) (x : WriteState) (i : Bool) : (b.setCaptureHead w rest x i).tracker = b.tracker :=
  rfl
@[simp] theorem Block.setCaptureHead_joints (w : BufferedWrite) (rest : List BufferedWrite) (x : WriteState) (i : Bool) : (b.setCaptureHead w rest x i).joints = b.joints :=
  rfl
@[simp] theorem Block.setCaptureHead_tally (w : BufferedWrite) (rest : List BufferedWrite) (x : WriteState) (i : Bool) : (b.setCaptureHead w rest x i).tally = b.tally :=
  rfl
@[simp] theorem Block.setCaptureHead_line (w : BufferedWrite) (rest : List BufferedWrite) (x : WriteState) (i : Bool) : (b.setCaptureHead w rest x i).line = b.line :=
  rfl
@[simp] theorem Block.setCaptureHead_writer (w : BufferedWrite) (rest : List BufferedWrite) (x : WriteState) (i : Bool) : (b.setCaptureHead w rest x i).writer = b.writer :=
  rfl
@[simp] theorem Block.setCaptureHead_logs (w : BufferedWrite) (rest : List BufferedWrite) (x : WriteState) (i : Bool) : (b.setCaptureHead w rest x i).logs = b.logs :=
  rfl
@[simp] theorem Block.setCaptureHead_blockSequence (w : BufferedWrite) (rest : List BufferedWrite) (x : WriteState) (i : Bool) : (b.setCaptureHead w rest x i).blockSequence = b.blockSequence :=
  rfl
@[simp] theorem Block.setCaptureHead_stamp (w : BufferedWrite) (rest : List BufferedWrite) (x : WriteState) (i : Bool) : (b.setCaptureHead w rest x i).stamp = b.stamp :=
  rfl

/-! ### `Block.takeBurst` -/

@[simp] theorem Block.takeBurst_capture (p : Program) (k : Nat) (w : BufferedWrite) : (b.takeBurst p k w).capture = b.capture :=
  rfl
@[simp] theorem Block.takeBurst_system (p : Program) (k : Nat) (w : BufferedWrite) : (b.takeBurst p k w).system = b.system :=
  rfl
@[simp] theorem Block.takeBurst_memory (p : Program) (k : Nat) (w : BufferedWrite) : (b.takeBurst p k w).memory = b.memory :=
  rfl
@[simp] theorem Block.takeBurst_master (p : Program) (k : Nat) (w : BufferedWrite) : (b.takeBurst p k w).master = b.master :=
  rfl
@[simp] theorem Block.takeBurst_decoder (p : Program) (k : Nat) (w : BufferedWrite) : (b.takeBurst p k w).decoder = b.decoder :=
  rfl
@[simp] theorem Block.takeBurst_store (p : Program) (k : Nat) (w : BufferedWrite) : (b.takeBurst p k w).store = b.store :=
  rfl
@[simp] theorem Block.takeBurst_joints (p : Program) (k : Nat) (w : BufferedWrite) : (b.takeBurst p k w).joints = b.joints :=
  rfl
@[simp] theorem Block.takeBurst_tally (p : Program) (k : Nat) (w : BufferedWrite) : (b.takeBurst p k w).tally = b.tally :=
  rfl
@[simp] theorem Block.takeBurst_line (p : Program) (k : Nat) (w : BufferedWrite) : (b.takeBurst p k w).line = b.line :=
  rfl
@[simp] theorem Block.takeBurst_writer (p : Program) (k : Nat) (w : BufferedWrite) : (b.takeBurst p k w).writer = b.writer :=
  rfl
@[simp] theorem Block.takeBurst_logs (p : Program) (k : Nat) (w : BufferedWrite) : (b.takeBurst p k w).logs = b.logs :=
  rfl
@[simp] theorem Block.takeBurst_blockSequence (p : Program) (k : Nat) (w : BufferedWrite) : (b.takeBurst p k w).blockSequence = b.blockSequence :=
  rfl
@[simp] theorem Block.takeBurst_stamp (p : Program) (k : Nat) (w : BufferedWrite) : (b.takeBurst p k w).stamp = b.stamp :=
  rfl

/-! ### `Block.setSegments` -/

@[simp] theorem Block.setSegments_capture (u : Burst) (r : List Segment) : (Block.setSegments u r b).capture = b.capture :=
  rfl
@[simp] theorem Block.setSegments_system (u : Burst) (r : List Segment) : (Block.setSegments u r b).system = b.system :=
  rfl
@[simp] theorem Block.setSegments_memory (u : Burst) (r : List Segment) : (Block.setSegments u r b).memory = b.memory :=
  rfl
@[simp] theorem Block.setSegments_master (u : Burst) (r : List Segment) : (Block.setSegments u r b).master = b.master :=
  rfl
@[simp] theorem Block.setSegments_decoder (u : Burst) (r : List Segment) : (Block.setSegments u r b).decoder = b.decoder :=
  rfl
@[simp] theorem Block.setSegments_store (u : Burst) (r : List Segment) : (Block.setSegments u r b).store = b.store :=
  rfl
@[simp] theorem Block.setSegments_joints (u : Burst) (r : List Segment) : (Block.setSegments u r b).joints = b.joints :=
  rfl
@[simp] theorem Block.setSegments_tally (u : Burst) (r : List Segment) : (Block.setSegments u r b).tally = b.tally :=
  rfl
@[simp] theorem Block.setSegments_line (u : Burst) (r : List Segment) : (Block.setSegments u r b).line = b.line :=
  rfl
@[simp] theorem Block.setSegments_writer (u : Burst) (r : List Segment) : (Block.setSegments u r b).writer = b.writer :=
  rfl
@[simp] theorem Block.setSegments_logs (u : Burst) (r : List Segment) : (Block.setSegments u r b).logs = b.logs :=
  rfl
@[simp] theorem Block.setSegments_blockSequence (u : Burst) (r : List Segment) : (Block.setSegments u r b).blockSequence = b.blockSequence :=
  rfl
@[simp] theorem Block.setSegments_stamp (u : Burst) (r : List Segment) : (Block.setSegments u r b).stamp = b.stamp :=
  rfl

/-! ### `Block.mergeCopy` -/

@[simp] theorem Block.mergeCopy_capture (c : MailboxCopy) : (b.mergeCopy c).capture = b.capture :=
  by simp only [Block.mergeCopy]
@[simp] theorem Block.mergeCopy_system (c : MailboxCopy) : (b.mergeCopy c).system = b.system :=
  by simp only [Block.mergeCopy]
@[simp] theorem Block.mergeCopy_memory (c : MailboxCopy) : (b.mergeCopy c).memory = b.memory :=
  by simp only [Block.mergeCopy]
@[simp] theorem Block.mergeCopy_master (c : MailboxCopy) : (b.mergeCopy c).master = b.master :=
  by simp only [Block.mergeCopy]
@[simp] theorem Block.mergeCopy_store (c : MailboxCopy) : (b.mergeCopy c).store = b.store :=
  by simp only [Block.mergeCopy]
@[simp] theorem Block.mergeCopy_tracker (c : MailboxCopy) : (b.mergeCopy c).tracker = b.tracker :=
  by simp only [Block.mergeCopy]
@[simp] theorem Block.mergeCopy_joints (c : MailboxCopy) : (b.mergeCopy c).joints = b.joints :=
  by simp only [Block.mergeCopy]
@[simp] theorem Block.mergeCopy_tally (c : MailboxCopy) : (b.mergeCopy c).tally = b.tally :=
  by simp only [Block.mergeCopy]
@[simp] theorem Block.mergeCopy_line (c : MailboxCopy) : (b.mergeCopy c).line = b.line :=
  by simp only [Block.mergeCopy]
@[simp] theorem Block.mergeCopy_writer (c : MailboxCopy) : (b.mergeCopy c).writer = b.writer :=
  by simp only [Block.mergeCopy]
@[simp] theorem Block.mergeCopy_logs (c : MailboxCopy) : (b.mergeCopy c).logs = b.logs :=
  by simp only [Block.mergeCopy]
@[simp] theorem Block.mergeCopy_blockSequence (c : MailboxCopy) : (b.mergeCopy c).blockSequence = b.blockSequence :=
  by simp only [Block.mergeCopy]
@[simp] theorem Block.mergeCopy_stamp (c : MailboxCopy) : (b.mergeCopy c).stamp = b.stamp :=
  by simp only [Block.mergeCopy]

/-! ### `Block.configureRing` -/

@[simp] theorem Block.configureRing_capture (r : Ring) : (b.configureRing r).capture = b.capture :=
  rfl
@[simp] theorem Block.configureRing_system (r : Ring) : (b.configureRing r).system = b.system :=
  rfl
@[simp] theorem Block.configureRing_memory (r : Ring) : (b.configureRing r).memory = b.memory :=
  rfl
@[simp] theorem Block.configureRing_master (r : Ring) : (b.configureRing r).master = b.master :=
  rfl
@[simp] theorem Block.configureRing_store (r : Ring) : (b.configureRing r).store = b.store := rfl
@[simp] theorem Block.configureRing_tracker (r : Ring) : (b.configureRing r).tracker = b.tracker :=
  rfl
@[simp] theorem Block.configureRing_joints (r : Ring) : (b.configureRing r).joints = b.joints :=
  rfl
@[simp] theorem Block.configureRing_tally (r : Ring) : (b.configureRing r).tally = b.tally := rfl
@[simp] theorem Block.configureRing_line (r : Ring) : (b.configureRing r).line = b.line := rfl
@[simp] theorem Block.configureRing_logs (r : Ring) : (b.configureRing r).logs = b.logs := rfl
@[simp] theorem Block.configureRing_blockSequence (r : Ring) : (b.configureRing r).blockSequence = b.blockSequence :=
  rfl
@[simp] theorem Block.configureRing_stamp (r : Ring) : (b.configureRing r).stamp = b.stamp := rfl

/-! ### `Block.handFetch` -/

@[simp] theorem Block.handFetch_capture (l : Load) : (b.handFetch l).capture = b.capture := rfl
@[simp] theorem Block.handFetch_system (l : Load) : (b.handFetch l).system = b.system := rfl
@[simp] theorem Block.handFetch_memory (l : Load) : (b.handFetch l).memory = b.memory := rfl
@[simp] theorem Block.handFetch_decoder (l : Load) : (b.handFetch l).decoder = b.decoder := rfl
@[simp] theorem Block.handFetch_tracker (l : Load) : (b.handFetch l).tracker = b.tracker := rfl
@[simp] theorem Block.handFetch_joints (l : Load) : (b.handFetch l).joints = b.joints := rfl
@[simp] theorem Block.handFetch_tally (l : Load) : (b.handFetch l).tally = b.tally := rfl
@[simp] theorem Block.handFetch_line (l : Load) : (b.handFetch l).line = b.line := rfl
@[simp] theorem Block.handFetch_writer (l : Load) : (b.handFetch l).writer = b.writer := rfl
@[simp] theorem Block.handFetch_logs (l : Load) : (b.handFetch l).logs = b.logs := rfl
@[simp] theorem Block.handFetch_blockSequence (l : Load) : (b.handFetch l).blockSequence = b.blockSequence :=
  rfl

/-! ### `Block.handSlot` -/

@[simp] theorem Block.handSlot_capture (g : Ring) (r : RingRecord) : (b.handSlot g r).capture = b.capture :=
  rfl
@[simp] theorem Block.handSlot_system (g : Ring) (r : RingRecord) : (b.handSlot g r).system = b.system :=
  rfl
@[simp] theorem Block.handSlot_memory (g : Ring) (r : RingRecord) : (b.handSlot g r).memory = b.memory :=
  rfl
@[simp] theorem Block.handSlot_decoder (g : Ring) (r : RingRecord) : (b.handSlot g r).decoder = b.decoder :=
  rfl
@[simp] theorem Block.handSlot_store (g : Ring) (r : RingRecord) : (b.handSlot g r).store = b.store :=
  rfl
@[simp] theorem Block.handSlot_tracker (g : Ring) (r : RingRecord) : (b.handSlot g r).tracker = b.tracker :=
  rfl
@[simp] theorem Block.handSlot_joints (g : Ring) (r : RingRecord) : (b.handSlot g r).joints = b.joints :=
  rfl
@[simp] theorem Block.handSlot_tally (g : Ring) (r : RingRecord) : (b.handSlot g r).tally = b.tally :=
  rfl
@[simp] theorem Block.handSlot_line (g : Ring) (r : RingRecord) : (b.handSlot g r).line = b.line :=
  rfl
@[simp] theorem Block.handSlot_logs (g : Ring) (r : RingRecord) : (b.handSlot g r).logs = b.logs :=
  rfl
@[simp] theorem Block.handSlot_blockSequence (g : Ring) (r : RingRecord) : (b.handSlot g r).blockSequence = b.blockSequence :=
  rfl

/-! ### `Block.retire` -/

@[simp] theorem Block.retire_capture (t : Nat) : (b.retire t).capture = b.capture := rfl
@[simp] theorem Block.retire_system (t : Nat) : (b.retire t).system = b.system := rfl
@[simp] theorem Block.retire_master (t : Nat) : (b.retire t).master = b.master := rfl
@[simp] theorem Block.retire_decoder (t : Nat) : (b.retire t).decoder = b.decoder := rfl
@[simp] theorem Block.retire_store (t : Nat) : (b.retire t).store = b.store := rfl
@[simp] theorem Block.retire_tracker (t : Nat) : (b.retire t).tracker = b.tracker := rfl
@[simp] theorem Block.retire_joints (t : Nat) : (b.retire t).joints = b.joints := rfl
@[simp] theorem Block.retire_tally (t : Nat) : (b.retire t).tally = b.tally := rfl
@[simp] theorem Block.retire_line (t : Nat) : (b.retire t).line = b.line := rfl
@[simp] theorem Block.retire_writer (t : Nat) : (b.retire t).writer = b.writer := rfl
@[simp] theorem Block.retire_logs (t : Nat) : (b.retire t).logs = b.logs := rfl
@[simp] theorem Block.retire_blockSequence (t : Nat) : (b.retire t).blockSequence = b.blockSequence :=
  rfl
@[simp] theorem Block.retire_stamp (t : Nat) : (b.retire t).stamp = b.stamp := rfl

/-! ### `Block.elapse` -/

@[simp] theorem Block.elapse_capture (n : Nat) : (b.elapse n).capture = b.capture := rfl
@[simp] theorem Block.elapse_system (n : Nat) : (b.elapse n).system = b.system := rfl
@[simp] theorem Block.elapse_master (n : Nat) : (b.elapse n).master = b.master := rfl
@[simp] theorem Block.elapse_decoder (n : Nat) : (b.elapse n).decoder = b.decoder := rfl
@[simp] theorem Block.elapse_store (n : Nat) : (b.elapse n).store = b.store := rfl
@[simp] theorem Block.elapse_tracker (n : Nat) : (b.elapse n).tracker = b.tracker := rfl
@[simp] theorem Block.elapse_joints (n : Nat) : (b.elapse n).joints = b.joints := rfl
@[simp] theorem Block.elapse_tally (n : Nat) : (b.elapse n).tally = b.tally := rfl
@[simp] theorem Block.elapse_writer (n : Nat) : (b.elapse n).writer = b.writer := rfl
@[simp] theorem Block.elapse_logs (n : Nat) : (b.elapse n).logs = b.logs := rfl
@[simp] theorem Block.elapse_blockSequence (n : Nat) : (b.elapse n).blockSequence = b.blockSequence :=
  rfl
@[simp] theorem Block.elapse_stamp (n : Nat) : (b.elapse n).stamp = b.stamp := rfl

/-! ### `Block.offerBoard` -/

@[simp] theorem Block.offerBoard_capture (r : BoardResult) : (b.offerBoard r).capture = b.capture :=
  rfl
@[simp] theorem Block.offerBoard_system (r : BoardResult) : (b.offerBoard r).system = b.system :=
  rfl
@[simp] theorem Block.offerBoard_memory (r : BoardResult) : (b.offerBoard r).memory = b.memory :=
  rfl
@[simp] theorem Block.offerBoard_master (r : BoardResult) : (b.offerBoard r).master = b.master :=
  rfl
@[simp] theorem Block.offerBoard_decoder (r : BoardResult) : (b.offerBoard r).decoder = b.decoder :=
  rfl
@[simp] theorem Block.offerBoard_store (r : BoardResult) : (b.offerBoard r).store = b.store := rfl
@[simp] theorem Block.offerBoard_tracker (r : BoardResult) : (b.offerBoard r).tracker = b.tracker :=
  rfl
@[simp] theorem Block.offerBoard_joints (r : BoardResult) : (b.offerBoard r).joints = b.joints :=
  rfl
@[simp] theorem Block.offerBoard_tally (r : BoardResult) : (b.offerBoard r).tally = b.tally := rfl
@[simp] theorem Block.offerBoard_line (r : BoardResult) : (b.offerBoard r).line = b.line := rfl
@[simp] theorem Block.offerBoard_logs (r : BoardResult) : (b.offerBoard r).logs = b.logs := rfl
@[simp] theorem Block.offerBoard_blockSequence (r : BoardResult) : (b.offerBoard r).blockSequence = b.blockSequence :=
  rfl
@[simp] theorem Block.offerBoard_stamp (r : BoardResult) : (b.offerBoard r).stamp = b.stamp := rfl

/-! ### `Block.offerNotice` -/

@[simp] theorem Block.offerNotice_capture (r : NoticeResult) : (b.offerNotice r).capture = b.capture :=
  rfl
@[simp] theorem Block.offerNotice_system (r : NoticeResult) : (b.offerNotice r).system = b.system :=
  rfl
@[simp] theorem Block.offerNotice_memory (r : NoticeResult) : (b.offerNotice r).memory = b.memory :=
  rfl
@[simp] theorem Block.offerNotice_master (r : NoticeResult) : (b.offerNotice r).master = b.master :=
  rfl
@[simp] theorem Block.offerNotice_decoder (r : NoticeResult) : (b.offerNotice r).decoder = b.decoder :=
  rfl
@[simp] theorem Block.offerNotice_store (r : NoticeResult) : (b.offerNotice r).store = b.store :=
  rfl
@[simp] theorem Block.offerNotice_tracker (r : NoticeResult) : (b.offerNotice r).tracker = b.tracker :=
  rfl
@[simp] theorem Block.offerNotice_joints (r : NoticeResult) : (b.offerNotice r).joints = b.joints :=
  rfl
@[simp] theorem Block.offerNotice_tally (r : NoticeResult) : (b.offerNotice r).tally = b.tally :=
  rfl
@[simp] theorem Block.offerNotice_line (r : NoticeResult) : (b.offerNotice r).line = b.line := rfl
@[simp] theorem Block.offerNotice_logs (r : NoticeResult) : (b.offerNotice r).logs = b.logs := rfl
@[simp] theorem Block.offerNotice_blockSequence (r : NoticeResult) : (b.offerNotice r).blockSequence = b.blockSequence :=
  rfl
@[simp] theorem Block.offerNotice_stamp (r : NoticeResult) : (b.offerNotice r).stamp = b.stamp :=
  rfl

/-! ### `Block.setPort` -/

@[simp] theorem Block.setPort_capture (p : Port) : (b.setPort .capture p).capture = p := rfl
@[simp] theorem Block.setPort_system (p : Port) : (b.setPort .system p).system = p := rfl
@[simp] theorem Block.setPort_capture_system (p : Port) : (b.setPort .capture p).system = b.system := rfl
@[simp] theorem Block.setPort_system_capture (p : Port) : (b.setPort .system p).capture = b.capture := rfl
@[simp] theorem Block.port_capture : b.port .capture = b.capture := rfl
@[simp] theorem Block.port_system : b.port .system = b.system := rfl
@[simp] theorem Block.port_setPort (i : PortId) (p : Port) : (b.setPort i p).port i = p := by cases i <;> rfl
@[simp] theorem Block.setPort_port (i : PortId) : b.setPort i (b.port i) = b := by cases i <;> rfl
@[simp] theorem Block.setPort_setPort (i : PortId) (p q : Port) : (b.setPort i p).setPort i q = b.setPort i q := by
  cases i <;> rfl
@[simp] theorem Block.setPort_memory (i : PortId) (p : Port) : (b.setPort i p).memory = b.memory := by cases i <;> rfl
@[simp] theorem Block.setPort_master (i : PortId) (p : Port) : (b.setPort i p).master = b.master := by cases i <;> rfl
@[simp] theorem Block.setPort_decoder (i : PortId) (p : Port) : (b.setPort i p).decoder = b.decoder := by cases i <;> rfl
@[simp] theorem Block.setPort_store (i : PortId) (p : Port) : (b.setPort i p).store = b.store := by cases i <;> rfl
@[simp] theorem Block.setPort_tracker (i : PortId) (p : Port) : (b.setPort i p).tracker = b.tracker := by cases i <;> rfl
@[simp] theorem Block.setPort_joints (i : PortId) (p : Port) : (b.setPort i p).joints = b.joints := by cases i <;> rfl
@[simp] theorem Block.setPort_tally (i : PortId) (p : Port) : (b.setPort i p).tally = b.tally := by cases i <;> rfl
@[simp] theorem Block.setPort_line (i : PortId) (p : Port) : (b.setPort i p).line = b.line := by cases i <;> rfl
@[simp] theorem Block.setPort_writer (i : PortId) (p : Port) : (b.setPort i p).writer = b.writer := by cases i <;> rfl
@[simp] theorem Block.setPort_logs (i : PortId) (p : Port) : (b.setPort i p).logs = b.logs := by cases i <;> rfl
@[simp] theorem Block.setPort_blockSequence (i : PortId) (p : Port) : (b.setPort i p).blockSequence = b.blockSequence := by cases i <;> rfl
@[simp] theorem Block.setPort_stamp (i : PortId) (p : Port) : (b.setPort i p).stamp = b.stamp := by cases i <;> rfl

/-! ### The machine -/

@[simp] theorem State.onBlock_eq (s : State) (f : Block → Block) :
    s.onBlock f = .next { s with block := f s.block } := rfl
@[simp] theorem State.tick_pending (s : State) : s.tick.pending = s.pending := rfl
@[simp] theorem State.tick_block (s : State) : s.tick.block = s.block.elapse 1 := rfl

end Sys2Proof.Machine
end

