-- ==== Sys2Proof/Laws/Frames.lean ====
section
/-! SUPPORT. Frames of the shared operations: for each, the parts of the block that it never changes. `simp` uses
each conjunct as a rewrite rule. -/

namespace Sys2Proof.Machine

variable (b : Block)

@[simp] theorem Block.askRewrite_frame :
    (b.askRewrite).capture = b.capture ∧ (b.askRewrite).system = b.system ∧
    (b.askRewrite).memory = b.memory ∧ (b.askRewrite).decoder = b.decoder ∧
    (b.askRewrite).store = b.store ∧ (b.askRewrite).tracker = b.tracker ∧
    (b.askRewrite).joints = b.joints ∧ (b.askRewrite).tally = b.tally ∧ (b.askRewrite).line = b.line ∧
    (b.askRewrite).writer = b.writer ∧ (b.askRewrite).logs = b.logs ∧
    (b.askRewrite).blockSequence = b.blockSequence := by
  simp only [Block.askRewrite]; split_ifs <;> simp

@[simp] theorem Block.writeProducerWord_frame :
    (b.writeProducerWord).capture = b.capture ∧ (b.writeProducerWord).system = b.system ∧
    (b.writeProducerWord).memory = b.memory ∧ (b.writeProducerWord).decoder = b.decoder ∧
    (b.writeProducerWord).store = b.store ∧ (b.writeProducerWord).tracker = b.tracker ∧
    (b.writeProducerWord).joints = b.joints ∧ (b.writeProducerWord).tally = b.tally ∧
    (b.writeProducerWord).line = b.line ∧ (b.writeProducerWord).writer = b.writer ∧
    (b.writeProducerWord).logs = b.logs ∧ (b.writeProducerWord).blockSequence = b.blockSequence := by
  unfold Block.writeProducerWord; split_ifs <;> simp

@[simp] theorem Block.offerJoint_frame (r : JointResult) :
    (b.offerJoint r).capture = b.capture ∧ (b.offerJoint r).system = b.system ∧
    (b.offerJoint r).memory = b.memory ∧ (b.offerJoint r).master = b.master ∧
    (b.offerJoint r).decoder = b.decoder ∧ (b.offerJoint r).store = b.store ∧
    (b.offerJoint r).tracker = b.tracker ∧ (b.offerJoint r).joints = b.joints ∧
    (b.offerJoint r).line = b.line ∧ (b.offerJoint r).logs = b.logs ∧
    (b.offerJoint r).blockSequence = b.blockSequence ∧ (b.offerJoint r).stamp = b.stamp := by
  simp only [Block.offerJoint]; split_ifs <;> simp

@[simp] theorem Block.logError_frame (e : LoggedError) :
    (b.logError e).capture = b.capture ∧ (b.logError e).system = b.system ∧
    (b.logError e).memory = b.memory ∧ (b.logError e).decoder = b.decoder ∧
    (b.logError e).store = b.store ∧ (b.logError e).tracker = b.tracker ∧
    (b.logError e).joints = b.joints ∧ (b.logError e).tally = b.tally ∧ (b.logError e).line = b.line ∧
    (b.logError e).blockSequence = b.blockSequence := by
  simp only [Block.logError]; split <;> simp

@[simp] theorem Block.triggerHold_frame :
    (b.triggerHold).capture = b.capture ∧ (b.triggerHold).system = b.system ∧
    (b.triggerHold).memory = b.memory ∧ (b.triggerHold).decoder = b.decoder ∧
    (b.triggerHold).store = b.store ∧ (b.triggerHold).tracker = b.tracker ∧
    (b.triggerHold).joints = b.joints ∧ (b.triggerHold).tally = b.tally ∧
    (b.triggerHold).writer = b.writer ∧ (b.triggerHold).logs = b.logs ∧
    (b.triggerHold).blockSequence = b.blockSequence := by
  simp only [Block.triggerHold]; split <;> simp

@[simp] theorem Block.closeFrame_frame (k : CloseKind) :
    (b.closeFrame k).capture = b.capture ∧ (b.closeFrame k).system = b.system ∧
    (b.closeFrame k).memory = b.memory ∧ (b.closeFrame k).decoder = b.decoder ∧
    (b.closeFrame k).store = b.store ∧ (b.closeFrame k).joints = b.joints ∧
    (b.closeFrame k).tally = b.tally ∧ (b.closeFrame k).line = b.line ∧
    (b.closeFrame k).writer = b.writer ∧ (b.closeFrame k).logs = b.logs ∧
    (b.closeFrame k).blockSequence = b.blockSequence := by
  simp only [Block.closeFrame]; split <;> simp

@[simp] theorem Block.containPort_frame (i : PortId) :
    (b.containPort i).memory = b.memory ∧ (b.containPort i).decoder = b.decoder ∧
    (b.containPort i).store = b.store ∧ (b.containPort i).joints = b.joints ∧
    (b.containPort i).tally = b.tally ∧ (b.containPort i).writer = b.writer ∧
    (b.containPort i).logs = b.logs ∧ (b.containPort i).blockSequence = b.blockSequence := by
  unfold Block.containPort; cases i <;> simp only [] <;> split <;> (try split) <;> simp

@[simp] theorem Block.followReport_frame (e : LoggedError) :
    (b.followReport e).memory = b.memory ∧ (b.followReport e).decoder = b.decoder ∧
    (b.followReport e).store = b.store ∧ (b.followReport e).joints = b.joints ∧
    (b.followReport e).tally = b.tally ∧ (b.followReport e).writer = b.writer ∧
    (b.followReport e).logs = b.logs ∧ (b.followReport e).blockSequence = b.blockSequence := by
  unfold Block.followReport; split <;> (try split) <;> simp

@[simp] theorem Block.report_frame (e : LoggedError) :
    (b.report e).memory = b.memory ∧ (b.report e).decoder = b.decoder ∧ (b.report e).store = b.store ∧
    (b.report e).joints = b.joints ∧ (b.report e).tally = b.tally ∧
    (b.report e).blockSequence = b.blockSequence := by
  simp [Block.report]

@[simp] theorem Block.endLoad_frame (x : LoadOutcome) (n : Nat) :
    (b.endLoad x n).capture = b.capture ∧ (b.endLoad x n).system = b.system ∧
    (b.endLoad x n).memory = b.memory ∧ (b.endLoad x n).decoder = b.decoder ∧
    (b.endLoad x n).tracker = b.tracker ∧ (b.endLoad x n).joints = b.joints ∧
    (b.endLoad x n).tally = b.tally ∧ (b.endLoad x n).line = b.line ∧ (b.endLoad x n).writer = b.writer ∧
    (b.endLoad x n).logs = b.logs ∧ (b.endLoad x n).blockSequence = b.blockSequence := by
  simp only [Block.endLoad]; split <;> simp

@[simp] theorem Block.exchangeBanks_frame :
    (b.exchangeBanks).capture = b.capture ∧ (b.exchangeBanks).system = b.system ∧
    (b.exchangeBanks).memory = b.memory ∧ (b.exchangeBanks).decoder = b.decoder ∧
    (b.exchangeBanks).tracker = b.tracker ∧ (b.exchangeBanks).joints = b.joints ∧
    (b.exchangeBanks).tally = b.tally ∧ (b.exchangeBanks).line = b.line ∧
    (b.exchangeBanks).writer = b.writer ∧ (b.exchangeBanks).logs = b.logs ∧
    (b.exchangeBanks).blockSequence = b.blockSequence := by
  simp only [Block.exchangeBanks]; split <;> simp

@[simp] theorem Block.takeInspectionReset_frame :
    (b.takeInspectionReset).capture = b.capture ∧ (b.takeInspectionReset).system = b.system ∧
    (b.takeInspectionReset).memory = b.memory ∧ (b.takeInspectionReset).writer = b.writer ∧
    (b.takeInspectionReset).logs = b.logs ∧ (b.takeInspectionReset).blockSequence = b.blockSequence := by
  simp [Block.takeInspectionReset]

@[simp] theorem Block.giveResult_frame (r : JointResult) :
    (b.giveResult r).capture = b.capture ∧ (b.giveResult r).system = b.system ∧
    (b.giveResult r).memory = b.memory ∧ (b.giveResult r).master = b.master ∧
    (b.giveResult r).decoder = b.decoder ∧ (b.giveResult r).store = b.store ∧
    (b.giveResult r).tracker = b.tracker ∧ (b.giveResult r).joints = b.joints ∧
    (b.giveResult r).line = b.line ∧ (b.giveResult r).logs = b.logs ∧
    (b.giveResult r).blockSequence = b.blockSequence ∧ (b.giveResult r).stamp = b.stamp := by
  simp [Block.giveResult]

@[simp] theorem Block.judgeRecord_frame (p : Program) (k : HandOver) (a : Accumulator) :
    (Block.judgeRecord p k b a).capture = b.capture ∧ (Block.judgeRecord p k b a).system = b.system ∧
    (Block.judgeRecord p k b a).memory = b.memory ∧ (Block.judgeRecord p k b a).master = b.master ∧
    (Block.judgeRecord p k b a).decoder = b.decoder ∧ (Block.judgeRecord p k b a).store = b.store ∧
    (Block.judgeRecord p k b a).tracker = b.tracker ∧ (Block.judgeRecord p k b a).joints = b.joints ∧
    (Block.judgeRecord p k b a).line = b.line ∧ (Block.judgeRecord p k b a).logs = b.logs ∧
    (Block.judgeRecord p k b a).blockSequence = b.blockSequence ∧ (Block.judgeRecord p k b a).stamp = b.stamp := by
  simp [Block.judgeRecord]

@[simp] theorem Block.judgeAbsent_frame (p : Program) (c : Cause) (n : Nat) :
    (Block.judgeAbsent p c b n).capture = b.capture ∧ (Block.judgeAbsent p c b n).system = b.system ∧
    (Block.judgeAbsent p c b n).memory = b.memory ∧ (Block.judgeAbsent p c b n).master = b.master ∧
    (Block.judgeAbsent p c b n).decoder = b.decoder ∧ (Block.judgeAbsent p c b n).store = b.store ∧
    (Block.judgeAbsent p c b n).tracker = b.tracker ∧ (Block.judgeAbsent p c b n).joints = b.joints ∧
    (Block.judgeAbsent p c b n).line = b.line ∧ (Block.judgeAbsent p c b n).logs = b.logs ∧
    (Block.judgeAbsent p c b n).blockSequence = b.blockSequence ∧
    (Block.judgeAbsent p c b n).stamp = b.stamp := by
  simp [Block.judgeAbsent]

@[simp] theorem Block.admitOne_frame (p : Program) (j : Joint) :
    (Block.admitOne p b j).capture = b.capture ∧ (Block.admitOne p b j).system = b.system ∧
    (Block.admitOne p b j).memory = b.memory ∧ (Block.admitOne p b j).master = b.master ∧
    (Block.admitOne p b j).decoder = b.decoder ∧ (Block.admitOne p b j).store = b.store ∧
    (Block.admitOne p b j).tracker = b.tracker ∧ (Block.admitOne p b j).line = b.line ∧
    (Block.admitOne p b j).logs = b.logs ∧ (Block.admitOne p b j).blockSequence = b.blockSequence ∧
    (Block.admitOne p b j).stamp = b.stamp := by
  simp only [Block.admitOne]; split_ifs <;> simp

@[simp] theorem Block.admitJoints_frame (p : Program) (row : Nat) (l : List Joint) :
    (Block.admitJoints p row l b).capture = b.capture ∧ (Block.admitJoints p row l b).system = b.system ∧
    (Block.admitJoints p row l b).memory = b.memory ∧ (Block.admitJoints p row l b).master = b.master ∧
    (Block.admitJoints p row l b).decoder = b.decoder ∧ (Block.admitJoints p row l b).store = b.store ∧
    (Block.admitJoints p row l b).tracker = b.tracker ∧ (Block.admitJoints p row l b).line = b.line ∧
    (Block.admitJoints p row l b).logs = b.logs ∧
    (Block.admitJoints p row l b).blockSequence = b.blockSequence ∧
    (Block.admitJoints p row l b).stamp = b.stamp := by
  induction l generalizing b with
  | nil => simp [Block.admitJoints]
  | cons j l ih => unfold Block.admitJoints; split_ifs <;> simp [ih]

@[simp] theorem Block.admit_frame (p : Program) (row : Nat) :
    (Block.admitRow p row b).capture = b.capture ∧ (Block.admitRow p row b).system = b.system ∧
    (Block.admitRow p row b).memory = b.memory ∧ (Block.admitRow p row b).master = b.master ∧
    (Block.admitRow p row b).decoder = b.decoder ∧ (Block.admitRow p row b).store = b.store ∧
    (Block.admitRow p row b).tracker = b.tracker ∧ (Block.admitRow p row b).line = b.line ∧
    (Block.admitRow p row b).logs = b.logs ∧ (Block.admitRow p row b).blockSequence = b.blockSequence ∧
    (Block.admitRow p row b).stamp = b.stamp := by
  simp [Block.admitRow]

@[simp] theorem Block.judgeEach_frame (p : Program) (k : Accumulator → HandOver) (l : List Accumulator) :
    (l.foldl (fun b a => Block.judgeRecord p (k a) b a.closeGapRow) b).capture = b.capture ∧
    (l.foldl (fun b a => Block.judgeRecord p (k a) b a.closeGapRow) b).system = b.system ∧
    (l.foldl (fun b a => Block.judgeRecord p (k a) b a.closeGapRow) b).memory = b.memory ∧
    (l.foldl (fun b a => Block.judgeRecord p (k a) b a.closeGapRow) b).master = b.master ∧
    (l.foldl (fun b a => Block.judgeRecord p (k a) b a.closeGapRow) b).decoder = b.decoder ∧
    (l.foldl (fun b a => Block.judgeRecord p (k a) b a.closeGapRow) b).store = b.store ∧
    (l.foldl (fun b a => Block.judgeRecord p (k a) b a.closeGapRow) b).tracker = b.tracker ∧
    (l.foldl (fun b a => Block.judgeRecord p (k a) b a.closeGapRow) b).joints = b.joints ∧
    (l.foldl (fun b a => Block.judgeRecord p (k a) b a.closeGapRow) b).line = b.line ∧
    (l.foldl (fun b a => Block.judgeRecord p (k a) b a.closeGapRow) b).logs = b.logs ∧
    (l.foldl (fun b a => Block.judgeRecord p (k a) b a.closeGapRow) b).blockSequence = b.blockSequence ∧
    (l.foldl (fun b a => Block.judgeRecord p (k a) b a.closeGapRow) b).stamp = b.stamp := by
  induction l generalizing b with
  | nil => simp
  | cons a l ih => simp only [List.foldl_cons]; simp [ih]

@[simp] theorem Block.notice_frame (p : Program) (k : Nat) :
    (Block.notice p k b).capture = b.capture ∧ (Block.notice p k b).system = b.system ∧
    (Block.notice p k b).memory = b.memory ∧ (Block.notice p k b).master = b.master ∧
    (Block.notice p k b).decoder = b.decoder ∧ (Block.notice p k b).store = b.store ∧
    (Block.notice p k b).tracker = b.tracker ∧ (Block.notice p k b).line = b.line ∧
    (Block.notice p k b).logs = b.logs ∧ (Block.notice p k b).blockSequence = b.blockSequence ∧
    (Block.notice p k b).stamp = b.stamp := by
  have h := fun b' l => Block.judgeEach_frame b' p (fun _ => .completed) l
  simp only [Block.notice]; simp [h]

@[simp] theorem Block.handOverAll_frame (p : Program) :
    (Block.handOverAll p b).capture = b.capture ∧ (Block.handOverAll p b).system = b.system ∧
    (Block.handOverAll p b).memory = b.memory ∧ (Block.handOverAll p b).master = b.master ∧
    (Block.handOverAll p b).decoder = b.decoder ∧ (Block.handOverAll p b).store = b.store ∧
    (Block.handOverAll p b).tracker = b.tracker ∧ (Block.handOverAll p b).line = b.line ∧
    (Block.handOverAll p b).logs = b.logs ∧ (Block.handOverAll p b).blockSequence = b.blockSequence ∧
    (Block.handOverAll p b).stamp = b.stamp := by
  have h := fun b' l => Block.judgeEach_frame b' p
    (fun a => if a.complete b.tracker.progress then .completed else .forced) l
  simp only [Block.handOverAll]; simp [h]

@[simp] theorem Block.judgeAbsents_frame (p : Program) (c : Cause) (l : List Nat) :
    (l.foldl (Block.judgeAbsent p c) b).capture = b.capture ∧
    (l.foldl (Block.judgeAbsent p c) b).system = b.system ∧
    (l.foldl (Block.judgeAbsent p c) b).memory = b.memory ∧
    (l.foldl (Block.judgeAbsent p c) b).master = b.master ∧
    (l.foldl (Block.judgeAbsent p c) b).decoder = b.decoder ∧
    (l.foldl (Block.judgeAbsent p c) b).store = b.store ∧
    (l.foldl (Block.judgeAbsent p c) b).tracker = b.tracker ∧
    (l.foldl (Block.judgeAbsent p c) b).joints = b.joints ∧
    (l.foldl (Block.judgeAbsent p c) b).line = b.line ∧ (l.foldl (Block.judgeAbsent p c) b).logs = b.logs ∧
    (l.foldl (Block.judgeAbsent p c) b).blockSequence = b.blockSequence ∧
    (l.foldl (Block.judgeAbsent p c) b).stamp = b.stamp := by
  induction l generalizing b with
  | nil => simp
  | cons a l ih => simp only [List.foldl_cons]; simp [ih]

@[simp] theorem Block.handOverUnreached_frame (p : Program) :
    (Block.handOverUnreached p b).capture = b.capture ∧ (Block.handOverUnreached p b).system = b.system ∧
    (Block.handOverUnreached p b).memory = b.memory ∧ (Block.handOverUnreached p b).master = b.master ∧
    (Block.handOverUnreached p b).decoder = b.decoder ∧ (Block.handOverUnreached p b).store = b.store ∧
    (Block.handOverUnreached p b).tracker = b.tracker ∧ (Block.handOverUnreached p b).line = b.line ∧
    (Block.handOverUnreached p b).logs = b.logs ∧
    (Block.handOverUnreached p b).blockSequence = b.blockSequence ∧
    (Block.handOverUnreached p b).stamp = b.stamp := by
  simp [Block.handOverUnreached]

@[simp] theorem Block.closeVerdicts_frame :
    (b.closeVerdicts).capture = b.capture ∧ (b.closeVerdicts).system = b.system ∧
    (b.closeVerdicts).memory = b.memory ∧ (b.closeVerdicts).master = b.master ∧
    (b.closeVerdicts).decoder = b.decoder ∧ (b.closeVerdicts).store = b.store ∧
    (b.closeVerdicts).tracker = b.tracker ∧ (b.closeVerdicts).line = b.line ∧
    (b.closeVerdicts).logs = b.logs ∧ (b.closeVerdicts).blockSequence = b.blockSequence ∧
    (b.closeVerdicts).stamp = b.stamp := by
  simp only [Block.closeVerdicts]; split <;> simp

@[simp] theorem Block.finishBoard_frame :
    (b.finishBoard).capture = b.capture ∧ (b.finishBoard).system = b.system ∧
    (b.finishBoard).memory = b.memory ∧ (b.finishBoard).master = b.master ∧
    (b.finishBoard).decoder = b.decoder ∧ (b.finishBoard).store = b.store ∧
    (b.finishBoard).tracker = b.tracker ∧ (b.finishBoard).joints = b.joints ∧
    (b.finishBoard).tally = b.tally ∧ (b.finishBoard).logs = b.logs ∧
    (b.finishBoard).blockSequence = b.blockSequence ∧ (b.finishBoard).stamp = b.stamp := by
  unfold Block.finishBoard; split <;> (try split_ifs) <;> simp

@[simp] theorem Block.leadingEdge_frame :
    (b.leadingEdge).memory = b.memory ∧ (b.leadingEdge).decoder = b.decoder ∧
    (b.leadingEdge).store = b.store ∧ (b.leadingEdge).joints = b.joints ∧ (b.leadingEdge).tally = b.tally ∧
    (b.leadingEdge).blockSequence = b.blockSequence := by
  simp only [Block.leadingEdge]; split_ifs <;> simp

@[simp] theorem Block.dueAction_frame (x : Board) :
    (b.dueAction x).memory = b.memory ∧ (b.dueAction x).decoder = b.decoder ∧
    (b.dueAction x).store = b.store ∧ (b.dueAction x).joints = b.joints ∧ (b.dueAction x).tally = b.tally ∧
    (b.dueAction x).blockSequence = b.blockSequence := by
  unfold Block.dueAction; split <;> simp

@[simp] theorem Block.dueBoards_frame (n : Nat) :
    (Block.dueBoards n b).memory = b.memory ∧ (Block.dueBoards n b).decoder = b.decoder ∧
    (Block.dueBoards n b).store = b.store ∧ (Block.dueBoards n b).joints = b.joints ∧
    (Block.dueBoards n b).tally = b.tally ∧ (Block.dueBoards n b).blockSequence = b.blockSequence := by
  induction n generalizing b with
  | zero => simp [Block.dueBoards]
  | succ n ih => unfold Block.dueBoards; split <;> (try split_ifs) <;> simp [ih]

@[simp] theorem Block.timeoutTest_frame :
    (b.timeoutTest).memory = b.memory ∧ (b.timeoutTest).decoder = b.decoder ∧
    (b.timeoutTest).store = b.store ∧ (b.timeoutTest).joints = b.joints ∧ (b.timeoutTest).tally = b.tally ∧
    (b.timeoutTest).blockSequence = b.blockSequence := by
  simp only [Block.timeoutTest]; split_ifs <;> simp

@[simp] theorem Block.positionChanged_frame :
    (b.positionChanged).memory = b.memory ∧ (b.positionChanged).decoder = b.decoder ∧
    (b.positionChanged).store = b.store ∧ (b.positionChanged).joints = b.joints ∧
    (b.positionChanged).tally = b.tally ∧ (b.positionChanged).blockSequence = b.blockSequence := by
  simp [Block.positionChanged]

@[simp] theorem Block.openFrame_frame (p : Program) :
    (b.openFrame p).capture = b.capture ∧ (b.openFrame p).system = b.system ∧
    (b.openFrame p).memory = b.memory ∧ (b.openFrame p).decoder = b.decoder ∧
    (b.openFrame p).writer = b.writer ∧ (b.openFrame p).logs = b.logs ∧
    (b.openFrame p).blockSequence = b.blockSequence := by
  simp [Block.openFrame]

@[simp] theorem Block.normalTest_frame (p : Program) :
    (Block.normalTest p b).capture = b.capture ∧ (Block.normalTest p b).system = b.system ∧
    (Block.normalTest p b).memory = b.memory ∧ (Block.normalTest p b).decoder = b.decoder ∧
    (Block.normalTest p b).store = b.store ∧ (Block.normalTest p b).joints = b.joints ∧
    (Block.normalTest p b).tally = b.tally ∧ (Block.normalTest p b).line = b.line ∧
    (Block.normalTest p b).writer = b.writer ∧ (Block.normalTest p b).logs = b.logs ∧
    (Block.normalTest p b).blockSequence = b.blockSequence := by
  simp only [Block.normalTest]; split_ifs <;> simp

@[simp] theorem Block.orderBreak_frame (u : Burst) (g : Segment) :
    (b.orderBreak u g).memory = b.memory ∧ (b.orderBreak u g).decoder = b.decoder ∧
    (b.orderBreak u g).store = b.store ∧ (b.orderBreak u g).tally = b.tally ∧
    (b.orderBreak u g).blockSequence = b.blockSequence := by
  simp [Block.orderBreak]

@[simp] theorem Block.enterRow_frame (p : Program) (k : Nat) (q : LaneProgress) (g : Segment) :
    (Block.enterRow p k q g b).capture = b.capture ∧ (Block.enterRow p k q g b).system = b.system ∧
    (Block.enterRow p k q g b).memory = b.memory ∧ (Block.enterRow p k q g b).master = b.master ∧
    (Block.enterRow p k q g b).decoder = b.decoder ∧ (Block.enterRow p k q g b).store = b.store ∧
    (Block.enterRow p k q g b).line = b.line ∧ (Block.enterRow p k q g b).logs = b.logs ∧
    (Block.enterRow p k q g b).blockSequence = b.blockSequence ∧
    (Block.enterRow p k q g b).stamp = b.stamp := by
  simp only [Block.enterRow]; split_ifs <;> simp

@[simp] theorem Block.classifySegment_frame (p : Program) (u : Burst) (g : Segment) :
    (Block.classifySegment p u g b).capture = b.capture ∧
    (Block.classifySegment p u g b).system = b.system ∧ (Block.classifySegment p u g b).memory = b.memory ∧
    (Block.classifySegment p u g b).master = b.master ∧
    (Block.classifySegment p u g b).decoder = b.decoder ∧ (Block.classifySegment p u g b).store = b.store ∧
    (Block.classifySegment p u g b).tracker = b.tracker ∧ (Block.classifySegment p u g b).tally = b.tally ∧
    (Block.classifySegment p u g b).line = b.line ∧ (Block.classifySegment p u g b).writer = b.writer ∧
    (Block.classifySegment p u g b).logs = b.logs ∧
    (Block.classifySegment p u g b).blockSequence = b.blockSequence ∧
    (Block.classifySegment p u g b).stamp = b.stamp := by
  simp only [Block.classifySegment]; split_ifs <;> simp

@[simp] theorem Block.leaveSegment_frame (p : Program) (k : Nat) (q : LaneProgress) (g : Segment) :
    (Block.leaveSegment p k q g b).capture = b.capture ∧ (Block.leaveSegment p k q g b).system = b.system ∧
    (Block.leaveSegment p k q g b).memory = b.memory ∧ (Block.leaveSegment p k q g b).decoder = b.decoder ∧
    (Block.leaveSegment p k q g b).store = b.store ∧ (Block.leaveSegment p k q g b).line = b.line ∧
    (Block.leaveSegment p k q g b).logs = b.logs ∧
    (Block.leaveSegment p k q g b).blockSequence = b.blockSequence := by
  simp only [Block.leaveSegment]; split_ifs <;> simp

@[simp] theorem Block.handleSegment_frame (p : Program) (u : Burst) (g : Segment) :
    (Block.handleSegment p u g b).memory = b.memory ∧ (Block.handleSegment p u g b).decoder = b.decoder ∧
    (Block.handleSegment p u g b).store = b.store ∧
    (Block.handleSegment p u g b).blockSequence = b.blockSequence := by
  unfold Block.handleSegment; split <;> (try split_ifs) <;> simp

@[simp] theorem Block.reportLaneRange_frame (u : Burst) :
    (Block.reportLaneRange u b).memory = b.memory ∧ (Block.reportLaneRange u b).decoder = b.decoder ∧
    (Block.reportLaneRange u b).store = b.store ∧ (Block.reportLaneRange u b).joints = b.joints ∧
    (Block.reportLaneRange u b).tally = b.tally ∧
    (Block.reportLaneRange u b).blockSequence = b.blockSequence := by
  simp only [Block.reportLaneRange]; split_ifs <;> simp

@[simp] theorem Block.returnToIdle_frame :
    (b.returnToIdle).capture = b.capture ∧ (b.returnToIdle).system = b.system ∧
    (b.returnToIdle).memory = b.memory ∧ (b.returnToIdle).decoder = b.decoder ∧
    (b.returnToIdle).store = b.store ∧ (b.returnToIdle).joints = b.joints ∧
    (b.returnToIdle).tally = b.tally ∧ (b.returnToIdle).line = b.line ∧
    (b.returnToIdle).writer = b.writer ∧ (b.returnToIdle).logs = b.logs ∧
    (b.returnToIdle).blockSequence = b.blockSequence := by
  simp [Block.returnToIdle]

@[simp] theorem Block.legalStep_frame (x : Bool × Bool) (d : Int) :
    (b.legalStep x d).memory = b.memory ∧ (b.legalStep x d).decoder = b.decoder ∧
    (b.legalStep x d).store = b.store ∧ (b.legalStep x d).joints = b.joints ∧
    (b.legalStep x d).tally = b.tally ∧ (b.legalStep x d).blockSequence = b.blockSequence := by
  simp [Block.legalStep]

@[simp] theorem Block.illegalSample_frame (x : Bool × Bool) :
    (b.illegalSample x).memory = b.memory ∧ (b.illegalSample x).decoder = b.decoder ∧
    (b.illegalSample x).store = b.store ∧ (b.illegalSample x).joints = b.joints ∧
    (b.illegalSample x).tally = b.tally ∧ (b.illegalSample x).blockSequence = b.blockSequence := by
  simp [Block.illegalSample]

@[simp] theorem Block.applyConsumer_frame (u : ConsumerUpdate) :
    (b.applyConsumer u).memory = b.memory ∧ (b.applyConsumer u).decoder = b.decoder ∧
    (b.applyConsumer u).store = b.store ∧ (b.applyConsumer u).joints = b.joints ∧
    (b.applyConsumer u).tally = b.tally ∧ (b.applyConsumer u).blockSequence = b.blockSequence := by
  unfold Block.applyConsumer; split <;> (try split_ifs) <;> simp

@[simp] theorem Block.takeConsumer_frame (u : ConsumerUpdate) :
    (b.takeConsumer u).memory = b.memory ∧ (b.takeConsumer u).decoder = b.decoder ∧
    (b.takeConsumer u).store = b.store ∧ (b.takeConsumer u).joints = b.joints ∧
    (b.takeConsumer u).tally = b.tally ∧ (b.takeConsumer u).blockSequence = b.blockSequence := by
  unfold Block.takeConsumer; split <;> simp

@[simp] theorem Block.recordCommand_frame (k : Nat) (o : CommandOutcome) :
    (b.recordCommand k o).capture = b.capture ∧ (b.recordCommand k o).system = b.system ∧
    (b.recordCommand k o).memory = b.memory ∧ (b.recordCommand k o).store = b.store ∧
    (b.recordCommand k o).tracker = b.tracker ∧ (b.recordCommand k o).joints = b.joints ∧
    (b.recordCommand k o).tally = b.tally ∧ (b.recordCommand k o).line = b.line ∧
    (b.recordCommand k o).writer = b.writer ∧ (b.recordCommand k o).logs = b.logs ∧
    (b.recordCommand k o).blockSequence = b.blockSequence := by
  simp [Block.recordCommand]

@[simp] theorem Block.applyHeld_frame :
    (b.applyHeld).memory = b.memory ∧ (b.applyHeld).decoder = b.decoder ∧ (b.applyHeld).store = b.store ∧
    (b.applyHeld).joints = b.joints ∧ (b.applyHeld).tally = b.tally ∧
    (b.applyHeld).blockSequence = b.blockSequence := by
  simp only [Block.applyHeld]; split <;> simp

@[simp] theorem Block.endSlotWrite_frame :
    (b.endSlotWrite).memory = b.memory ∧ (b.endSlotWrite).decoder = b.decoder ∧
    (b.endSlotWrite).store = b.store ∧ (b.endSlotWrite).joints = b.joints ∧
    (b.endSlotWrite).tally = b.tally ∧ (b.endSlotWrite).blockSequence = b.blockSequence := by
  simp [Block.endSlotWrite]

@[simp] theorem Block.slotDone_frame (n : Nat) :
    (b.slotDone n).memory = b.memory ∧ (b.slotDone n).decoder = b.decoder ∧
    (b.slotDone n).store = b.store ∧ (b.slotDone n).joints = b.joints ∧ (b.slotDone n).tally = b.tally ∧
    (b.slotDone n).blockSequence = b.blockSequence := by
  simp only [Block.slotDone]; split_ifs <;> simp

@[simp] theorem Block.slotFailed_frame (n : Nat) :
    (b.slotFailed n).memory = b.memory ∧ (b.slotFailed n).decoder = b.decoder ∧
    (b.slotFailed n).store = b.store ∧ (b.slotFailed n).joints = b.joints ∧
    (b.slotFailed n).tally = b.tally ∧ (b.slotFailed n).blockSequence = b.blockSequence := by
  simp only [Block.slotFailed]; split_ifs <;> simp

@[simp] theorem Block.completeLoad_frame (p : Program) :
    (b.completeLoad p).capture = b.capture ∧ (b.completeLoad p).system = b.system ∧
    (b.completeLoad p).memory = b.memory ∧ (b.completeLoad p).decoder = b.decoder ∧
    (b.completeLoad p).tracker = b.tracker ∧ (b.completeLoad p).joints = b.joints ∧
    (b.completeLoad p).tally = b.tally ∧ (b.completeLoad p).line = b.line ∧
    (b.completeLoad p).writer = b.writer ∧ (b.completeLoad p).logs = b.logs ∧
    (b.completeLoad p).blockSequence = b.blockSequence := by
  simp only [Block.completeLoad]; split_ifs <;> simp

@[simp] theorem Block.takeValidation_frame (v : Validation) :
    (b.takeValidation v).capture = b.capture ∧ (b.takeValidation v).system = b.system ∧
    (b.takeValidation v).memory = b.memory ∧ (b.takeValidation v).decoder = b.decoder ∧
    (b.takeValidation v).tracker = b.tracker ∧ (b.takeValidation v).joints = b.joints ∧
    (b.takeValidation v).tally = b.tally ∧ (b.takeValidation v).line = b.line ∧
    (b.takeValidation v).writer = b.writer ∧ (b.takeValidation v).logs = b.logs ∧
    (b.takeValidation v).blockSequence = b.blockSequence := by
  cases v <;> simp [Block.takeValidation]

@[simp] theorem Block.fetchDone_frame (n : Nat) (d : List Beat) :
    (b.fetchDone n d).capture = b.capture ∧ (b.fetchDone n d).system = b.system ∧
    (b.fetchDone n d).memory = b.memory ∧ (b.fetchDone n d).decoder = b.decoder ∧
    (b.fetchDone n d).tracker = b.tracker ∧ (b.fetchDone n d).joints = b.joints ∧
    (b.fetchDone n d).tally = b.tally ∧ (b.fetchDone n d).line = b.line ∧
    (b.fetchDone n d).writer = b.writer ∧ (b.fetchDone n d).logs = b.logs ∧
    (b.fetchDone n d).blockSequence = b.blockSequence := by
  simp only [Block.fetchDone]; split <;> simp

@[simp] theorem Block.fetchFailed_frame (n : Nat) :
    (b.fetchFailed n).capture = b.capture ∧ (b.fetchFailed n).system = b.system ∧
    (b.fetchFailed n).memory = b.memory ∧ (b.fetchFailed n).decoder = b.decoder ∧
    (b.fetchFailed n).tracker = b.tracker ∧ (b.fetchFailed n).joints = b.joints ∧
    (b.fetchFailed n).tally = b.tally ∧ (b.fetchFailed n).line = b.line ∧
    (b.fetchFailed n).writer = b.writer ∧ (b.fetchFailed n).logs = b.logs ∧
    (b.fetchFailed n).blockSequence = b.blockSequence := by
  simp only [Block.fetchFailed]; split <;> simp

@[simp] theorem Block.answerPort_frame (i : PortId) (n : Nat) (r : Response) (d : List Beat) :
    (b.answerPort i n r d).memory = b.memory ∧ (b.answerPort i n r d).master = b.master ∧
    (b.answerPort i n r d).decoder = b.decoder ∧ (b.answerPort i n r d).store = b.store ∧
    (b.answerPort i n r d).tracker = b.tracker ∧ (b.answerPort i n r d).joints = b.joints ∧
    (b.answerPort i n r d).tally = b.tally ∧ (b.answerPort i n r d).line = b.line ∧
    (b.answerPort i n r d).writer = b.writer ∧ (b.answerPort i n r d).logs = b.logs ∧
    (b.answerPort i n r d).blockSequence = b.blockSequence ∧ (b.answerPort i n r d).stamp = b.stamp := by
  simp [Block.answerPort]

@[simp] theorem Block.countStatus_frame (w : InternalWork) :
    (b.countStatus w).capture = b.capture ∧ (b.countStatus w).system = b.system ∧
    (b.countStatus w).memory = b.memory ∧ (b.countStatus w).master = b.master ∧
    (b.countStatus w).decoder = b.decoder ∧ (b.countStatus w).store = b.store ∧
    (b.countStatus w).tracker = b.tracker ∧ (b.countStatus w).joints = b.joints ∧
    (b.countStatus w).tally = b.tally ∧ (b.countStatus w).line = b.line ∧
    (b.countStatus w).writer = b.writer ∧ (b.countStatus w).logs = b.logs ∧
    (b.countStatus w).stamp = b.stamp := by
  simp only [Block.countStatus]; split_ifs <;> simp

end Sys2Proof.Machine
end

