-- ==== Sys2Proof/Laws/Ops.lean ====
section
/-! SUPPORT. What the shared operations do: one lemma for each, which later proofs cite instead of unfolding it. -/

namespace Sys2Proof.Machine

/-- Two blocks are equal when every part is. -/
theorem Block.eq_of_parts {b c : Block} (h1 : b.capture = c.capture) (h2 : b.system = c.system)
    (h3 : b.memory = c.memory) (h4 : b.master = c.master) (h5 : b.decoder = c.decoder) (h6 : b.store = c.store)
    (h7 : b.tracker = c.tracker) (h8 : b.joints = c.joints) (h9 : b.tally = c.tally) (h10 : b.line = c.line)
    (h11 : b.writer = c.writer) (h12 : b.logs = c.logs) (h13 : b.blockSequence = c.blockSequence)
    (h14 : b.stamp = c.stamp) : b = c := by
  cases b; cases c; simp_all

/-! ### Status rewrites (R194) -/

/-- A rewrite asked for depends on the internal master and the numbering alone. -/
theorem Block.askRewrite_congr {b c : Block} (hm : b.master = c.master) (hs : b.stamp = c.stamp) :
    b.askRewrite.master = c.askRewrite.master ∧ b.askRewrite.stamp = c.askRewrite.stamp := by
  have hp : b.statusPending = c.statusPending := by simp [Block.statusPending, hm]
  have hr : b.rewriteWanted = c.rewriteWanted := by simp [Block.rewriteWanted, hm]
  have hh : b.mayHandOver = c.mayHandOver := by simp [Block.mayHandOver, Block.masterHasRoom, hm]
  simp only [Block.askRewrite, hp, hr, hh]
  by_cases h1 : (c.statusPending || c.rewriteWanted) = true
  · simp only [if_pos h1, hm, hs, and_self]
  · by_cases h2 : c.mayHandOver = true <;> simp [h1, h2, Block.enqueue, Block.wait, hm, hs]

/-- The three things that asking for a rewrite can do (R194). -/
theorem Block.askRewrite_cases (b : Block) :
    (b.askRewrite = b ∧ (b.statusPending = true ∨ b.rewriteWanted = true))
    ∨ (b.askRewrite = b.enqueue .statusBlock ∧ b.mayHandOver = true)
    ∨ (b.askRewrite = b.wait .statusBlock ∧ b.mayHandOver = false) := by
  simp only [Block.askRewrite]
  split_ifs with h1 h2 <;> simp_all

/-- After a rewrite has been asked for, one is pending or wanted. -/
theorem Block.askRewrite_pending (b : Block) :
    b.askRewrite.statusPending = true ∨ b.askRewrite.rewriteWanted = true := by
  rcases b.askRewrite_cases with ⟨h, h'⟩ | ⟨h, -⟩ | ⟨h, -⟩ <;> rw [h]
  · exact h'
  · left; simp [Block.statusPending, Block.enqueue, InternalWork.isStatus]
  · right; simp [Block.rewriteWanted, Block.wait]

/-- A second request for a rewrite changes nothing. -/
theorem Block.askRewrite_of_pending {b : Block} (h : b.statusPending = true ∨ b.rewriteWanted = true) :
    b.askRewrite = b := by
  rcases h with h | h <;> simp [Block.askRewrite, h]

@[simp] theorem Block.askRewrite_askRewrite (b : Block) : b.askRewrite.askRewrite = b.askRewrite :=
  Block.askRewrite_of_pending b.askRewrite_pending

/-- A rewrite asked for by a block that differs from `c` in no part of the internal master. -/
theorem Block.askRewrite_of_master {b c : Block} (hm : b.master = c.master) (hs : b.stamp = c.stamp) :
    b.askRewrite = { b with master := c.askRewrite.master, stamp := c.askRewrite.stamp } := by
  have h := Block.askRewrite_congr hm hs
  apply Block.eq_of_parts <;> simp [h.1, h.2]

/-- A rewrite asked for again after another part of the block has changed. -/
theorem Block.askRewrite_again {b c : Block} (hm : b.master = c.askRewrite.master)
    (hs : b.stamp = c.askRewrite.stamp) : b.askRewrite = b := by
  rw [Block.askRewrite_of_master (c := c.askRewrite) hm hs]
  apply Block.eq_of_parts <;> simp [hm, hs]

end Sys2Proof.Machine
end

