-- ==== Sys2Proof/Laws/Answers.lean ====
section
/-! SUPPORT. The order of answers (R149): what releasing the answers of one master ID and direction gives. -/

namespace Sys2Proof.Machine

theorem OpenRequest.sameKind_iff (q : OpenRequest) (master : MasterId) (dir : Direction) :
    q.sameKind master dir = true ↔ q.master = master ∧ q.direction = dir := by
  simp [OpenRequest.sameKind]

/-- No request is lost or made by releasing answers. -/
theorem releaseAnswers_length (master : MasterId) (dir : Direction) (l : List OpenRequest) :
    (releaseAnswers master dir l).1.length + (releaseAnswers master dir l).2.length = l.length := by
  induction l with
  | nil => rfl
  | cons r l ih =>
    unfold releaseAnswers
    split_ifs
    · split
      · simp; omega
      · simp
    · simp; omega

/-- Requests of another kind are passed over. -/
theorem releaseAnswers_skip (master : MasterId) (dir : Direction) (before l : List OpenRequest)
    (h : ∀ r ∈ before, r.sameKind master dir = false) :
    releaseAnswers master dir (before ++ l) =
      (before ++ (releaseAnswers master dir l).1, (releaseAnswers master dir l).2) := by
  induction before with
  | nil => rfl
  | cons r before ih =>
    have hr : ¬ (r.master = master ∧ r.direction = dir) := by
      rw [← OpenRequest.sameKind_iff]; simp [h r]
    rw [List.cons_append, releaseAnswers, if_neg hr, ih fun q hq => h q (List.mem_cons_of_mem _ hq)]
    rfl

/-- Without a request of the kind nothing is released. -/
theorem releaseAnswers_none (master : MasterId) (dir : Direction) (l : List OpenRequest)
    (h : ∀ r ∈ l, r.sameKind master dir = false) : releaseAnswers master dir l = (l, []) := by
  have := releaseAnswers_skip master dir l [] h
  simpa [releaseAnswers] using this

/-- The first request of the kind, undecided, holds back every later one. -/
theorem releaseAnswers_stop (master : MasterId) (dir : Direction) (before after : List OpenRequest)
    (q : OpenRequest) (h : ∀ r ∈ before, r.sameKind master dir = false) (hq : q.sameKind master dir = true)
    (hd : q.decided = none) :
    releaseAnswers master dir (before ++ q :: after) = (before ++ q :: after, []) := by
  rw [releaseAnswers_skip _ _ _ _ h, releaseAnswers, if_pos ((q.sameKind_iff _ _).mp hq)]
  simp [hd]

/-- When no request of the kind is decided, nothing is released. -/
theorem releaseAnswers_undecided (master : MasterId) (dir : Direction) (l : List OpenRequest)
    (h : ∀ r ∈ l, r.sameKind master dir = true → r.decided = none) :
    releaseAnswers master dir l = (l, []) := by
  induction l with
  | nil => rfl
  | cons r l ih =>
    unfold releaseAnswers
    split_ifs with hr
    · rw [h r List.mem_cons_self ((r.sameKind_iff _ _).mpr hr)]
    · rw [ih fun q hq => h q (List.mem_cons_of_mem _ hq)]

/-- An undecided request of the kind, with none decided before it, holds back whatever follows. -/
theorem releaseAnswers_held (master : MasterId) (dir : Direction) (before after : List OpenRequest)
    (hex : ∃ r ∈ before, r.sameKind master dir = true)
    (h : ∀ r ∈ before, r.sameKind master dir = true → r.decided = none) :
    releaseAnswers master dir (before ++ after) = (before ++ after, []) := by
  induction before with
  | nil => obtain ⟨r, hr, -⟩ := hex; simp at hr
  | cons r before ih =>
    rw [List.cons_append, releaseAnswers]
    split_ifs with hr
    · rw [h r List.mem_cons_self ((r.sameKind_iff _ _).mpr hr)]
    · obtain ⟨q, hq, hk⟩ := hex
      rcases List.mem_cons.mp hq with rfl | hq
      · exact absurd ((q.sameKind_iff _ _).mp hk) hr
      · rw [ih ⟨q, hq, hk⟩ fun x hx => h x (List.mem_cons_of_mem _ hx)]

/-- The first request of the kind, decided, is answered, and the release goes on behind it. -/
theorem releaseAnswers_go (master : MasterId) (dir : Direction) (before after : List OpenRequest)
    (q : OpenRequest) (a : Answer) (h : ∀ r ∈ before, r.sameKind master dir = false)
    (hq : q.sameKind master dir = true) (hd : q.decided = some a) :
    releaseAnswers master dir (before ++ q :: after) =
      (before ++ (releaseAnswers master dir after).1, a :: (releaseAnswers master dir after).2) := by
  rw [releaseAnswers_skip _ _ _ _ h, releaseAnswers, if_pos ((q.sameKind_iff _ _).mp hq)]
  simp [hd]

/-- When every request of the kind is decided, all of them are answered. -/
theorem releaseAnswers_all (master : MasterId) (dir : Direction) (l : List OpenRequest)
    (h : ∀ r ∈ l, r.sameKind master dir = true → ∃ a, r.decided = some a) :
    releaseAnswers master dir l =
      (l.filter fun r => !r.sameKind master dir, (l.filter (·.sameKind master dir)).filterMap (·.decided)) := by
  induction l with
  | nil => rfl
  | cons r l ih =>
    have ih := ih fun q hq => h q (List.mem_cons_of_mem _ hq)
    by_cases hr : r.sameKind master dir = true
    · obtain ⟨a, ha⟩ := h r List.mem_cons_self hr
      rw [releaseAnswers, if_pos ((r.sameKind_iff _ _).mp hr)]
      simp [ha, ih, hr]
    · rw [releaseAnswers, if_neg (by rwa [← OpenRequest.sameKind_iff])]
      simp [ih, hr]

/-- The decided answers of the kind are given up to the first request that is undecided (R149). -/
theorem releaseAnswers_run (master : MasterId) (dir : Direction) (run rest : List OpenRequest)
    (h : ∀ r ∈ run, r.sameKind master dir = true → r.decided ≠ none)
    (hr : rest = [] ∨ ∃ r more, rest = r :: more ∧ r.sameKind master dir = true ∧ r.decided = none) :
    releaseAnswers master dir (run ++ rest) =
      ((run.filter fun r => !r.sameKind master dir) ++ rest,
        (run.filter (·.sameKind master dir)).filterMap (·.decided)) := by
  induction run with
  | nil =>
    rcases hr with rfl | ⟨r, more, rfl, hk, hd⟩
    · rfl
    · rw [List.nil_append, releaseAnswers, if_pos ((r.sameKind_iff _ _).mp hk)]
      simp [hd]
  | cons r l ih =>
    have ih := ih fun q hq => h q (List.mem_cons_of_mem _ hq)
    by_cases hk : r.sameKind master dir = true
    · obtain ⟨a, ha⟩ := Option.ne_none_iff_exists'.mp (h r List.mem_cons_self hk)
      rw [List.cons_append, releaseAnswers, if_pos ((r.sameKind_iff _ _).mp hk)]
      simp [ha, ih, hk]
    · rw [List.cons_append, releaseAnswers, if_neg (by rwa [← OpenRequest.sameKind_iff])]
      simp [ih, hk]

/-- Deciding an answer: the request is found by its number, marked, and the answers of its kind released. -/
theorem Port.answer_of_mem (p : Port) (before after : List OpenRequest) (q : OpenRequest) (resp : Response)
    (data : List Beat) (hl : p.unanswered = before ++ q :: after)
    (hn : (p.unanswered.map (·.stamp)).Nodup) :
    p.answer q.stamp resp data =
      { p with
        unanswered := (releaseAnswers q.master q.direction
          (before ++ { q with decided := some ⟨q.master, q.direction, resp, data⟩ } :: after)).1
        given := p.given ++ (releaseAnswers q.master q.direction
          (before ++ { q with decided := some ⟨q.master, q.direction, resp, data⟩ } :: after)).2 } := by
  rw [hl] at hn
  simp only [List.map_append, List.map_cons, List.nodup_append, List.nodup_cons, List.mem_map] at hn
  obtain ⟨-, ⟨ha, -⟩, hb⟩ := hn
  have hbefore : ∀ r ∈ before, r.stamp ≠ q.stamp := fun r hr =>
    hb _ ⟨r, hr, rfl⟩ _ List.mem_cons_self
  have hafter : ∀ r ∈ after, r.stamp ≠ q.stamp := fun r hr e => ha ⟨r, hr, e⟩
  have hfind : p.unanswered.find? (·.stamp == q.stamp) = some q := by
    rw [hl, List.find?_append, List.find?_eq_none.mpr]
    · simp
    · intro r hr; simp [hbefore r hr]
  have hmap : ∀ l : List OpenRequest, (∀ r ∈ l, r.stamp ≠ q.stamp) →
      (l.map fun r => if r.stamp = q.stamp then { r with decided := some ⟨r.master, r.direction, resp, data⟩ }
        else r) = l := by
    intro l hl
    conv_rhs => rw [← List.map_id l]
    exact List.map_congr_left fun r hr => by simp [hl r hr]
  rw [hl] at hfind
  unfold Port.answer
  simp only [hl, hfind, List.map_append, List.map_cons, hmap before hbefore, hmap after hafter, if_true]

/-- A request that has just been taken, the only one of its kind, is answered at once. -/
theorem Port.answer_new (p : Port) (q : OpenRequest) (resp : Response) (data : List Beat)
    (h : ∀ r ∈ p.unanswered, r.stamp ≠ q.stamp ∧ r.sameKind q.master q.direction = false) :
    { p with unanswered := p.unanswered ++ [q] }.answer q.stamp resp data =
      { p with given := p.given ++ [⟨q.master, q.direction, resp, data⟩] } := by
  have hfind : (p.unanswered ++ [q]).find? (·.stamp == q.stamp) = some q := by
    rw [List.find?_append, List.find?_eq_none.mpr]
    · simp
    · intro r hr; simp [(h r hr).1]
  have hm : (p.unanswered.map fun r =>
      if r.stamp = q.stamp then { r with decided := some ⟨r.master, r.direction, resp, data⟩ } else r) =
        p.unanswered := by
    conv_rhs => rw [← List.map_id p.unanswered]
    exact List.map_congr_left fun r hr => by simp [(h r hr).1]
  unfold Port.answer
  simp only [hfind, List.map_append, List.map_cons, List.map_nil, hm, if_true]
  rw [releaseAnswers_skip _ _ _ _ (fun r hr => (h r hr).2)]
  simp [releaseAnswers]

/-- An answer to a number that no open request has changes nothing. -/
theorem Port.answer_of_absent (p : Port) (stamp : Nat) (resp : Response) (data : List Beat)
    (h : ∀ r ∈ p.unanswered, r.stamp ≠ stamp) : p.answer stamp resp data = p := by
  unfold Port.answer
  rw [List.find?_eq_none.mpr]
  intro r hr; simp [h r hr]

/-- What deciding an answer never changes at a port. -/
@[simp] theorem Port.answer_frame (p : Port) (stamp : Nat) (resp : Response) (data : List Beat) :
    (p.answer stamp resp data).buffer = p.buffer ∧ (p.answer stamp resp data).failing = p.failing
    ∧ (p.answer stamp resp data).reads = p.reads ∧ (p.answer stamp resp data).containment = p.containment
    ∧ (p.answer stamp resp data).policy = p.policy
    ∧ (p.answer stamp resp data).failResponse = p.failResponse := by
  unfold Port.answer
  split <;> simp

/-- Deciding an answer only moves requests from open to answered. -/
theorem Port.answer_conserves (p : Port) (stamp : Nat) (resp : Response) (data : List Beat) :
    (∃ more, (p.answer stamp resp data).given = p.given ++ more)
    ∧ (p.answer stamp resp data).unanswered.length + (p.answer stamp resp data).given.length =
      p.unanswered.length + p.given.length := by
  unfold Port.answer
  split
  · exact ⟨⟨[], by simp⟩, rfl⟩
  · rename_i r _
    refine ⟨⟨_, rfl⟩, ?_⟩
    have := releaseAnswers_length r.master r.direction (p.unanswered.map fun q =>
      if q.stamp = stamp then { q with decided := some ⟨q.master, q.direction, resp, data⟩ } else q)
    simp only [List.length_map] at this
    simp only [List.length_append]
    omega

/-- The requests still open and the answers given of one master ID and direction, together. -/
abbrev Port.kindTotal (p : Port) (master : MasterId) (dir : Direction) : Nat :=
  p.unanswered.countP (·.sameKind master dir) + p.given.countP fun a => a.master == master && a.direction == dir

/-- A release moves requests to answers kind by kind, as long as each decided answer is its own request's. -/
theorem releaseAnswers_kind (master m : MasterId) (dir d : Direction) (l : List OpenRequest)
    (own : ∀ q ∈ l, ∀ a, q.decided = some a → a.master = q.master ∧ a.direction = q.direction) :
    (releaseAnswers master dir l).1.countP (·.sameKind m d)
      + (releaseAnswers master dir l).2.countP (fun a => a.master == m && a.direction == d)
      = l.countP (·.sameKind m d) := by
  induction l with
  | nil => rfl
  | cons q rest ih =>
    have ih := ih fun r h => own r (List.mem_cons_of_mem _ h)
    unfold releaseAnswers
    split
    · split
      · rename_i a ha
        obtain ⟨h1, h2⟩ := own q List.mem_cons_self a ha
        simp only [List.countP_cons, h1, h2, OpenRequest.sameKind] at ih ⊢
        omega
      · simp
    · simp only [List.countP_cons] at ih ⊢
      omega

/-- Deciding an answer conserves the requests and answers of every kind, as long as each decided answer is its own
request's. -/
theorem Port.answer_kindTotal (p : Port) (stamp : Nat) (resp : Response) (data : List Beat) (m : MasterId)
    (d : Direction)
    (own : ∀ q ∈ p.unanswered, ∀ a, q.decided = some a → a.master = q.master ∧ a.direction = q.direction) :
    (p.answer stamp resp data).kindTotal m d = p.kindTotal m d := by
  unfold Port.answer
  split
  · rfl
  · rename_i r _
    simp only [Port.kindTotal, List.countP_append]
    rw [Nat.add_comm (p.given.countP _), ← Nat.add_assoc, releaseAnswers_kind]
    · rw [List.countP_map]
      congr 2
      funext q
      simp only [Function.comp, OpenRequest.sameKind]
      split <;> rfl
    · intro q hq a ha
      obtain ⟨q', h', rfl⟩ := List.mem_map.mp hq
      split at ha
      · rename_i hs
        simp only [Option.some.injEq] at ha
        subst ha
        simp [hs]
      · rename_i hs
        simpa [hs] using own q' h' a ha

end Sys2Proof.Machine
end

