-- ==== Sys2Proof/Laws/Arbiter.lean ====
section
/-! SUPPORT. The arbiter: what a source's turn gives (R161). -/

namespace Sys2Proof.Machine

/-- In its turn a source that presents a request is granted it. -/
theorem Block.granted_of_inTurn {b : Block} {src : Source} {x : Presented} (ht : b.inTurn src)
    (hx : b.presents src = some x) : b.granted = some x := by
  unfold Block.inTurn at ht
  unfold Block.granted
  cases hl : b.memory.lastGrantee <;> cases src <;> simp_all [Source.next, List.takeWhile]

/-- When no source presents a request, none is granted. -/
theorem Block.granted_of_none {b : Block} (h : ∀ src, b.presents src = none) : b.granted = none := by
  simp [Block.granted, h]

/-- The grant of a request with its tag. -/
theorem Block.arbiterGrant_of_granted {b : Block} {x : Presented} {tagPick tag : Nat} {segmentInHand : Bool}
    (hx : b.granted = some x) (ht : b.memory.pickTag tagPick = some tag) :
    b.arbiterGrant tagPick segmentInHand = b.grant x tag segmentInHand := by
  simp [Block.arbiterGrant, hx, ht]

end Sys2Proof.Machine
end

