-- ==== Sys2Proof/Laws/Buffer.lean ====
section
/-! SUPPORT. The write buffer (R146, R150): which write a beat belongs to, and replacing or removing one write of a buffer
whose writes have distinct numbers. -/

namespace Sys2Proof.Machine

/-- The parts of a buffer whose numbers are distinct: the others differ from the one singled out. -/
theorem bufferStamps_apart {older later : List BufferedWrite} {w : BufferedWrite}
    (hn : ((older ++ w :: later).map (·.stamp)).Nodup) :
    (∀ v ∈ older, v.stamp ≠ w.stamp) ∧ ∀ v ∈ later, v.stamp ≠ w.stamp := by
  simp only [List.map_append, List.map_cons, List.nodup_append, List.nodup_cons, List.mem_map] at hn
  obtain ⟨-, ⟨ha, -⟩, hb⟩ := hn
  exact ⟨fun v hv => hb _ ⟨v, hv, rfl⟩ _ List.mem_cons_self, fun v hv e => ha ⟨v, hv, e⟩⟩

/-- Replacing a write by its number touches that write alone. -/
theorem Port.setWrite_at (p : Port) (older later : List BufferedWrite) (w w' : BufferedWrite)
    (hl : p.buffer = older ++ w :: later) (hn : (p.buffer.map (·.stamp)).Nodup) (hs : w'.stamp = w.stamp) :
    p.setWrite w' = { p with buffer := older ++ w' :: later } := by
  rw [hl] at hn
  obtain ⟨ho, ha⟩ := bufferStamps_apart hn
  have keep : ∀ l : List BufferedWrite, (∀ v ∈ l, v.stamp ≠ w.stamp) →
      (l.map fun v => if v.stamp = w.stamp then w' else v) = l := by
    intro l h
    conv_rhs => rw [← List.map_id l]
    exact List.map_congr_left fun v hv => by simp [h v hv]
  simp only [Port.setWrite, hl, List.map_append, List.map_cons, hs, keep older ho, keep later ha, if_true]

/-- Removing a write by its number leaves the others. -/
theorem buffer_filter_at (older later : List BufferedWrite) (w : BufferedWrite)
    (hn : ((older ++ w :: later).map (·.stamp)).Nodup) :
    ((older ++ w :: later).filter fun v => v.stamp != w.stamp) = older ++ later := by
  obtain ⟨ho, ha⟩ := bufferStamps_apart hn
  have keep : ∀ l : List BufferedWrite, (∀ v ∈ l, v.stamp ≠ w.stamp) →
      (l.filter fun v => v.stamp != w.stamp) = l := by
    intro l h
    exact List.filter_eq_self.mpr fun v hv => by simpa using h v hv
  simp [keep older ho, keep later ha]

/-- With no write of failed parity in the way, a beat belongs to the first buffered write that is still taking. -/
theorem Port.beatTarget_at (p : Port) (older later : List BufferedWrite) (w : BufferedWrite)
    (hf : p.failing = []) (hl : p.buffer = older ++ w :: later) (ho : ∀ v ∈ older, v.state ≠ .taking)
    (hw : w.state = .taking) : p.beatTarget = some (.buffered w) := by
  have : p.buffer.find? (·.state == .taking) = some w := by
    rw [hl, List.find?_append, List.find?_eq_none.mpr]
    · simp [hw]
    · intro v hv; simp [ho v hv]
  simp [Port.beatTarget, hf, this]

/-- Settling the head of the system port's buffer (R150). -/
theorem Port.settleHead_system (p : Port) :
    p.settleHead .system = { p with buffer :=
      match p.buffer with
      | [] => []
      | w :: rest => (if w.state = .waiting then { w with state := .ready } else w) :: rest } := by
  cases p with
  | mk buffer failing reads unanswered containment policy failResponse given =>
    cases buffer with
    | nil => rfl
    | cons w rest => by_cases h : w.state = .waiting <;> simp [Port.settleHead, h]

@[simp] theorem Port.settleHead_capture (p : Port) : p.settleHead .capture = p := rfl

/-- What settling never changes at a port. -/
@[simp] theorem Port.settleHead_frame (i : PortId) (p : Port) :
    (p.settleHead i).failing = p.failing ∧ (p.settleHead i).reads = p.reads
    ∧ (p.settleHead i).unanswered = p.unanswered ∧ (p.settleHead i).containment = p.containment
    ∧ (p.settleHead i).policy = p.policy ∧ (p.settleHead i).failResponse = p.failResponse
    ∧ (p.settleHead i).given = p.given := by
  cases i
  · simp
  · rw [Port.settleHead_system]; simp

end Sys2Proof.Machine
end

