-- ==== Sys2Proof/Laws/Containment.lean ====
section
/-! SUPPORT. Containment of a port (R134) and the gate mode that a hold trigger leaves (R144). -/

namespace Sys2Proof.Machine

/-! ### Folds of answers -/

/-- Answering a list of discarded writes changes neither buffer, reads nor settings. -/
theorem discardAnswers_frame (l : List BufferedWrite) (p : Port) :
    (l.foldl (fun p w => p.answer w.stamp .okay []) p).buffer = p.buffer
    ∧ (l.foldl (fun p w => p.answer w.stamp .okay []) p).reads = p.reads
    ∧ (l.foldl (fun p w => p.answer w.stamp .okay []) p).failing = p.failing
    ∧ (l.foldl (fun p w => p.answer w.stamp .okay []) p).containment = p.containment
    ∧ (l.foldl (fun p w => p.answer w.stamp .okay []) p).policy = p.policy
    ∧ (l.foldl (fun p w => p.answer w.stamp .okay []) p).failResponse = p.failResponse := by
  induction l generalizing p with
  | nil => simp
  | cons w l ih => simp only [List.foldl_cons, ih]; simp

/-- Answering a list of reads with the fail response changes neither buffer, reads nor settings. -/
theorem failReads_frame (l : List ListedRead) (p : Port) :
    (l.foldl Port.failRead p).buffer = p.buffer ∧ (l.foldl Port.failRead p).reads = p.reads
    ∧ (l.foldl Port.failRead p).failing = p.failing
    ∧ (l.foldl Port.failRead p).containment = p.containment ∧ (l.foldl Port.failRead p).policy = p.policy
    ∧ (l.foldl Port.failRead p).failResponse = p.failResponse := by
  induction l generalizing p with
  | nil => simp
  | cons r l ih => simp only [List.foldl_cons, ih, Port.failRead]; simp

/-- What containment leaves of a port's traffic (R134, steps 1 and 2). -/
theorem Port.contain_result (p : Port) :
    p.contain.reads = [] ∧ p.contain.containment = .contained ∧ p.contain.failing = p.failing
    ∧ p.contain.policy = p.policy ∧ p.contain.failResponse = p.failResponse
    ∧ p.contain.buffer = (p.buffer.filter fun w => decide (w.state = .taking) || w.inspected).map
        (fun w => if w.state = .taking then { w with doomed := true } else w) := by
  simp only [Port.contain, failReads_frame, discardAnswers_frame, true_and]
  have : BufferedWrite.staysOnContainment = fun w => decide (w.state = .taking) || w.inspected := by
    funext w; simp [BufferedWrite.staysOnContainment, Bool.beq_eq_decide_eq]
  rw [this]

/-! ### The gate mode -/

@[simp] theorem Line.setNote_frame (l : Line) (o : Serial) (a : GateAction) :
    (l.setNote o a).gateMode = l.gateMode ∧ (l.setNote o a).config = l.config
    ∧ (l.setNote o a).driver = l.driver ∧ (l.setNote o a).queue = l.queue
    ∧ (l.setNote o a).position = l.position ∧ (l.setNote o a).serial = l.serial
    ∧ (l.setNote o a).untracked = l.untracked ∧ (l.setNote o a).lastSample = l.lastSample
    ∧ (l.setNote o a).settled = l.settled ∧ (l.setNote o a).runCount = l.runCount := by
  unfold Line.setNote; split <;> (try split_ifs) <;> simp

@[simp] theorem Line.cutOwner_frame (l : Line) (o : Option Serial) :
    (l.cutOwner o).gateMode = l.gateMode ∧ (l.cutOwner o).config = l.config
    ∧ (l.cutOwner o).driver = l.driver ∧ (l.cutOwner o).queue = l.queue
    ∧ (l.cutOwner o).position = l.position ∧ (l.cutOwner o).serial = l.serial
    ∧ (l.cutOwner o).untracked = l.untracked ∧ (l.cutOwner o).lastSample = l.lastSample
    ∧ (l.cutOwner o).settled = l.settled ∧ (l.cutOwner o).runCount = l.runCount := by
  unfold Line.cutOwner; split <;> simp

/-- The end of DEAD changes the driver alone (R116). -/
theorem Line.endDead_eq (l : Line) (p : Option Pending) : l.endDead p = { l with driver := (l.endDead p).driver } := by
  unfold Line.endDead; split <;> (try split_ifs) <;> rfl

/-- Entering DEAD changes the driver alone (R112). -/
theorem Line.enterDead_eq (l : Line) (k : GateLine) (p : Option Pending) :
    l.enterDead k p = { l with driver := (l.enterDead k p).driver } := by
  unfold Line.enterDead; split_ifs
  · exact l.endDead_eq p
  · rfl

@[simp] theorem Line.endDead_frame (l : Line) (p : Option Pending) :
    (l.endDead p).gateMode = l.gateMode ∧ (l.endDead p).config = l.config
    ∧ (l.endDead p).lateNote = l.lateNote ∧ (l.endDead p).queue = l.queue
    ∧ (l.endDead p).position = l.position ∧ (l.endDead p).serial = l.serial
    ∧ (l.endDead p).untracked = l.untracked ∧ (l.endDead p).lastSample = l.lastSample
    ∧ (l.endDead p).settled = l.settled ∧ (l.endDead p).runCount = l.runCount := by
  rw [l.endDead_eq]; simp

@[simp] theorem Line.enterDead_frame (l : Line) (k : GateLine) (p : Option Pending) :
    (l.enterDead k p).gateMode = l.gateMode ∧ (l.enterDead k p).config = l.config
    ∧ (l.enterDead k p).lateNote = l.lateNote ∧ (l.enterDead k p).queue = l.queue
    ∧ (l.enterDead k p).position = l.position ∧ (l.enterDead k p).serial = l.serial
    ∧ (l.enterDead k p).untracked = l.untracked ∧ (l.enterDead k p).lastSample = l.lastSample
    ∧ (l.enterDead k p).settled = l.settled ∧ (l.enterDead k p).runCount = l.runCount := by
  rw [l.enterDead_eq]; simp

@[simp] theorem Line.drive_frame (l : Line) (k : GateLine) (e : Position) (o : Serial) :
    (l.drive k e o).gateMode = l.gateMode ∧ (l.drive k e o).config = l.config
    ∧ (l.drive k e o).lateNote = l.lateNote ∧ (l.drive k e o).queue = l.queue
    ∧ (l.drive k e o).position = l.position ∧ (l.drive k e o).serial = l.serial
    ∧ (l.drive k e o).untracked = l.untracked ∧ (l.drive k e o).lastSample = l.lastSample
    ∧ (l.drive k e o).settled = l.settled ∧ (l.drive k e o).runCount = l.runCount := by
  unfold Line.drive; split_ifs <;> simp

@[simp] theorem Line.takeAction_frame (l : Line) (k : GateLine) (e : Position) (o : Serial) :
    (l.takeAction k e o).gateMode = l.gateMode ∧ (l.takeAction k e o).config = l.config
    ∧ (l.takeAction k e o).queue = l.queue ∧ (l.takeAction k e o).position = l.position
    ∧ (l.takeAction k e o).serial = l.serial ∧ (l.takeAction k e o).untracked = l.untracked
    ∧ (l.takeAction k e o).lastSample = l.lastSample ∧ (l.takeAction k e o).settled = l.settled
    ∧ (l.takeAction k e o).runCount = l.runCount := by
  unfold Line.takeAction; split <;> (try split_ifs) <;> simp

@[simp] theorem Line.gateAction_frame (l : Line) (k : GateLine) (x : Board) :
    (l.gateAction k x).1.gateMode = l.gateMode ∧ (l.gateAction k x).1.config = l.config
    ∧ (l.gateAction k x).1.queue = l.queue ∧ (l.gateAction k x).1.position = l.position
    ∧ (l.gateAction k x).1.serial = l.serial ∧ (l.gateAction k x).1.untracked = l.untracked
    ∧ (l.gateAction k x).1.lastSample = l.lastSample ∧ (l.gateAction k x).1.settled = l.settled
    ∧ (l.gateAction k x).1.runCount = l.runCount := by
  unfold Line.gateAction; split <;> simp

@[simp] theorem Line.windowEnd_frame (l : Line) :
    l.windowEnd.gateMode = l.gateMode ∧ l.windowEnd.config = l.config ∧ l.windowEnd.lateNote = l.lateNote
    ∧ l.windowEnd.queue = l.queue ∧ l.windowEnd.position = l.position ∧ l.windowEnd.serial = l.serial
    ∧ l.windowEnd.untracked = l.untracked ∧ l.windowEnd.lastSample = l.lastSample
    ∧ l.windowEnd.settled = l.settled ∧ l.windowEnd.runCount = l.runCount := by
  unfold Line.windowEnd; split <;> (try split_ifs) <;> simp

@[simp] theorem Line.letGo_frame (l : Line) :
    l.letGo.gateMode = l.gateMode ∧ l.letGo.config = l.config ∧ l.letGo.queue = l.queue
    ∧ l.letGo.position = l.position ∧ l.letGo.serial = l.serial ∧ l.letGo.untracked = l.untracked
    ∧ l.letGo.lastSample = l.lastSample ∧ l.letGo.settled = l.settled ∧ l.letGo.runCount = l.runCount := by
  unfold Line.letGo; split <;> simp

/-- Entering HELD sets the gate mode and keeps all but the driver and the late note (R119). -/
@[simp] theorem Line.enterHeld_frame (l : Line) :
    l.enterHeld.gateMode = .held ∧ l.enterHeld.config = l.config ∧ l.enterHeld.queue = l.queue
    ∧ l.enterHeld.position = l.position ∧ l.enterHeld.serial = l.serial ∧ l.enterHeld.untracked = l.untracked
    ∧ l.enterHeld.lastSample = l.lastSample ∧ l.enterHeld.settled = l.settled
    ∧ l.enterHeld.runCount = l.runCount := by
  simp only [Line.enterHeld]; split <;> simp

/-- Leaving HELD sets the gate mode and keeps all but the driver (R120). -/
@[simp] theorem Line.release_frame (l : Line) :
    l.release.gateMode = .active ∧ l.release.config = l.config ∧ l.release.queue = l.queue
    ∧ l.release.lateNote = l.lateNote ∧ l.release.position = l.position ∧ l.release.serial = l.serial
    ∧ l.release.untracked = l.untracked ∧ l.release.lastSample = l.lastSample
    ∧ l.release.settled = l.settled ∧ l.release.runCount = l.runCount := by
  simp only [Line.release]; split <;> simp

/-- After a hold trigger the gate mode is HELD (R144). -/
theorem Block.triggerHold_mode (b : Block) : b.triggerHold.line.gateMode = .held := by
  unfold Block.triggerHold
  split
  · assumption
  · simp

/-- A hold trigger acts on the line as entry into HELD, unless the gate is held (R144). -/
theorem Block.triggerHold_line (b : Block) :
    b.triggerHold.line = if b.line.gateMode = .held then b.line else b.line.enterHeld := by
  unfold Block.triggerHold
  split
  · rename_i h; simp [h]
  · rename_i h
    rw [if_neg (by simpa using h)]
    simp

/-! ### Containment -/

/-- A port already CONTAINED is unchanged (R134). -/
theorem Block.containPort_contained (b : Block) (i : PortId) (h : (b.port i).containment = .contained) :
    b.containPort i = b := by
  simp [Block.containPort, h]

/-- The system port's entry into CONTAINED. -/
theorem Block.containPort_system (b : Block) (h : b.system.containment = .opened) :
    b.containPort .system = (b.setPort .system b.system.contain).askRewrite := by
  simp [Block.containPort, h]

/-- The capture port's entry into CONTAINED. -/
theorem Block.containPort_capture (b : Block) (h : b.capture.containment = .opened) :
    b.containPort .capture =
      (if b.line.config.holdOnContain = true then
        ((b.setPort .capture b.capture.contain).closeFrame .truncated).triggerHold
      else (b.setPort .capture b.capture.contain).closeFrame .truncated).askRewrite := by
  have hl : ((b.setPort .capture b.capture.contain).closeFrame .truncated).line = b.line := by simp
  simp only [Block.containPort, Block.port_capture, h, hl]

end Sys2Proof.Machine
end

