-- ==== Sys2Proof/Laws/Endings.lean ====
section
/-! SUPPORT. How a load and a slot write end, and how the owners that wait for room are served. -/

namespace Sys2Proof.Machine

/-! ### The end of a load (R9, R12, R13, R21) -/

/-- The bank that is LOADING is the one found, when the other is not. -/
theorem ProgramStore.loadingBank_of_loading {s : ProgramStore} {i : BankId} {l : Load}
    (h : s.bank i = .loading l) (ho : (s.bank i.other).load? = none) :
    s.loadingBank = some i ∧ s.load? = some l := by
  cases i <;>
    simp_all [ProgramStore.loadingBank, ProgramStore.load?, ProgramStore.findBank, ProgramStore.bank, BankId.other,
      Bank.load?]

/-- The end of the load in progress. -/
theorem Block.endLoad_of_loading {b : Block} {i : BankId} {l : Load} (outcome : LoadOutcome) (index : Nat)
    (h : b.store.bank i = .loading l) (ho : (b.store.bank i.other).load? = none) :
    b.endLoad outcome index = b.loadEnded i outcome index := by
  have hb := (ProgramStore.loadingBank_of_loading h ho).1
  have hd : b.master.dropFetchWait = { b.master with waiters := b.master.waiters.filter (· ≠ .fetch) } := by
    simp only [InternalMaster.dropFetchWait]
    congr 1
    exact List.filter_congr fun w _ => by cases w <;> rfl
  simp only [Block.endLoad, ProgramStore.endLoad, hb, Block.loadEnded, hd]
  have ha := Block.askRewrite_congr
    (b := { b with
      store := { b.store.setBank i .empty with record := ⟨b.store.record.target, some outcome, index⟩ }
      master := { b.master with waiters := b.master.waiters.filter (· ≠ .fetch) } })
    (c := { b with master := { b.master with waiters := b.master.waiters.filter (· ≠ .fetch) } }) rfl rfl
  apply Block.eq_of_parts
  case h4 => exact ha.1
  case h14 => exact ha.2
  all_goals simp

/-- Without a load nothing ends. -/
theorem Block.endLoad_of_none {b : Block} (outcome : LoadOutcome) (index : Nat)
    (h0 : b.store.bank0.load? = none) (h1 : b.store.bank1.load? = none) : b.endLoad outcome index = b := by
  have : b.store.loadingBank = none := by simp [ProgramStore.loadingBank, ProgramStore.findBank, h0, h1]
  simp [Block.endLoad, this]

/-! ### Owners that wait for room (R157) -/

/-- An owner that hands its request over leaves the others waiting. -/
theorem Block.handWaiter_waiters (b : Block) (w : Waiter) : (b.handWaiter w).master.waiters = b.master.waiters := by
  cases w <;> simp only [Block.handWaiter]
  · split <;> rfl
  · split <;> rfl
  · rfl
  · rfl

/-- With no place free, or no owner waiting, nothing is handed over. -/
theorem Block.internalHandover_stop {b : Block} (h : b.master.waiters = [] ∨ b.masterHasRoom = false) :
    b.internalHandover = b := by
  rcases hw : b.master.waiters with _ | ⟨w, rest⟩
  · simp only [Block.internalHandover, hw, Block.drainWaiters]
    apply Block.eq_of_parts <;> simp [← hw]
  · have hr : b.masterHasRoom = false := h.resolve_left (by simp [hw])
    simp only [Block.internalHandover, hw, Block.drainWaiters]
    rw [if_neg (by simpa [Block.masterHasRoom] using hr)]
    apply Block.eq_of_parts <;> simp [← hw]

/-- With a place free the owner that has waited longest is served, and the next one after it. -/
theorem Block.internalHandover_next {b : Block} {w : Waiter} {rest : List Waiter} (hw : b.master.waiters = w :: rest)
    (hr : b.masterHasRoom = true) :
    b.internalHandover =
      (({ b with master := { b.master with waiters := rest } } : Block).handWaiter w).internalHandover := by
  simp only [Block.internalHandover, hw, Block.handWaiter_waiters, Block.drainWaiters]
  rw [if_pos (by simpa [Block.masterHasRoom] using hr)]

end Sys2Proof.Machine
end

