-- ==== Sys2Proof/Laws/Inspection.lean ====
section
/-! SUPPORT. What an offer needs, what a due board does, and the validation of a load. -/

namespace Sys2Proof.Machine

/-- A head write is offered at an OPEN port when it is WAITING, or HELD with the frame IDLE (R23, R42, R150). -/
theorem Block.canOffer_iff (b : Block) (w : BufferedWrite) :
    b.canOffer w = true ↔ b.capture.containment = .opened
      ∧ (w.state = .waiting ∨ (w.state = .held ∧ b.tracker.state = .idle)) := by
  simp [Block.canOffer]

/-- Without a due head entry the due tests change nothing (R109). -/
theorem Block.dueBoards_stop (n : Nat) (b : Block)
    (h : ∀ x rest, b.line.queue = x :: rest → reached b.line.position x.due = false) : Block.dueBoards n b = b := by
  cases n with
  | zero => rfl
  | succ n =>
    unfold Block.dueBoards
    split
    · rfl
    · rename_i x rest hq
      simp [h x rest hq]

/-- A due head entry takes its action and leaves the queue, and the new head is tested (R109). -/
theorem Block.dueBoards_next (n : Nat) (b : Block) (x : Board) (rest : List Board) (hq : b.line.queue = x :: rest)
    (hd : reached b.line.position x.due = true) :
    Block.dueBoards (n + 1) b = Block.dueBoards n
      ({ b.dueAction x with line := { (b.dueAction x).line with queue := rest } } : Block).askRewrite := by
  rw [Block.dueBoards]
  simp [hq, hd]

/-- More fuel than there are items changes no validation. -/
theorem validateItems_fuel (h : Header) : ∀ (n m : Nat) (l : Load), l.received.length / 16 + 1 ≤ n →
    l.received.length / 16 + 1 ≤ m → validateItems h n l = validateItems h m l
  | 0, _, _, hn, _ => absurd hn (by omega)
  | _ + 1, 0, _, _, hm => absurd hm (by omega)
  | n + 1, m + 1, l, hn, hm => by
    unfold validateItems
    split
    · split
      · rfl
      · simp only
        split
        · apply validateItems_fuel <;> simp only [List.length_drop] <;> omega
        · rfl
    · split
      · rfl
      · split
        · rfl
        · simp only
          split
          · apply validateItems_fuel <;> simp only [List.length_drop] <;> omega
          · rfl

/-- The validation of a load that holds its header goes through the items received (R16). -/
theorem Load.validate_of_header (l : Load) (h : Header) (hl : l.header = some h) (n : Nat)
    (hn : l.received.length / 16 + 1 ≤ n) : l.validate = validateItems h n l := by
  simp only [Load.validate, hl]
  exact validateItems_fuel h _ _ l le_rfl hn

end Sys2Proof.Machine
end

