-- ==== Sys2Proof/Laws/Mailbox.lean ====
section
/-! SUPPORT. What the mailbox decoder reads back from the shadows: the kind word and the arguments that a command
row's write carries. -/

namespace Sys2Proof.Machine

/-! ### Bytes and numbers -/

theorem leNat_map_digits (v n : Nat) :
    leNat ((List.range n).map fun k => BitVec.ofNat 8 (v / 256 ^ k)) = v % 256 ^ n := by
  induction n generalizing v with
  | zero => simp [leNat, Nat.mod_one]
  | succ n ih =>
    rw [List.range_succ_eq_map, List.map_cons, List.map_map]
    have : (fun k => BitVec.ofNat 8 (v / 256 ^ k)) ∘ Nat.succ = fun k => BitVec.ofNat 8 (v / 256 / 256 ^ k) := by
      funext k
      simp [Function.comp, pow_succ', Nat.div_div_eq_div_mul]
    rw [this, leNat, ih]
    have pow : 256 ^ (n + 1) = 256 * 256 ^ n := pow_succ' 256 n
    rw [pow, Nat.mod_mul]
    simp

/-! ### Shadows -/

@[simp] theorem mergeShadow_noBytes {n : Nat} (v : Vector Byte n) : mergeShadow v noBytes = v := by
  ext i hi
  simp [mergeShadow, noBytes]

theorem mergeShadow_getElem {n : Nat} (v : Vector Byte n) (bytes : Vector (Option Byte) n) (k : Nat) (h : k < n) :
    (mergeShadow v bytes)[k] = (bytes[k]).getD v[k] := by
  simp [mergeShadow]

theorem commandBytes_getElem (kind : Nat) (fields : List SlotField) (k : Nat) (h : k < 64) :
    (commandBytes kind fields)[k] = slotByte k (⟨0, 4, kind⟩ :: fields) := by
  simp [commandBytes]

/-- A field of the merged slot, every byte of which the write carries, reads as the field's value. -/
theorem fieldAt_merged (v : Vector Byte 64) (kind : Nat) (fields : List SlotField) (off size value : Nat)
    (hoff : off + size ≤ 64)
    (hf : ∀ k < size, slotByte (off + k) (⟨0, 4, kind⟩ :: fields) = some (BitVec.ofNat 8 (value / 256 ^ k))) :
    fieldAt (mergeShadow v (commandBytes kind fields)).toList off size = value % 256 ^ size := by
  rw [← leNat_map_digits]
  unfold fieldAt
  congr 1
  apply List.ext_getElem
  · simp; omega
  · intro k h1 h2
    have hk : k < size := by simpa using h2
    have hk64 : off + k < 64 := by omega
    simp only [List.getElem_take, List.getElem_drop, Vector.getElem_toList, List.getElem_map,
      List.getElem_range]
    rw [mergeShadow_getElem _ _ _ hk64, commandBytes_getElem _ _ _ hk64, hf k hk, Option.getD_some]

theorem kind_merged (v : Vector Byte 64) (kind : Nat) (fields : List SlotField) (h : kind < 2 ^ 32) :
    fieldAt (mergeShadow v (commandBytes kind fields)).toList 0 4 = kind := by
  rw [fieldAt_merged v kind fields 0 4 kind (by omega)]
  · exact Nat.mod_eq_of_lt (by simpa using h)
  · intro k hk
    simp [slotByte, hk]

/-! ### A command row's write -/

/-- The block with the slot bytes of a command row's write copied into the shadow. -/
theorem Block.mergeCopy_slotCopy (b : Block) (bytes : Vector (Option Byte) 64) :
    b.mergeCopy (slotCopy bytes) =
      { b with decoder := { b.decoder with slot := mergeShadow b.decoder.slot bytes } } := by
  simp only [Block.mergeCopy, slotCopy, mergeShadow_noBytes]

theorem slotCopy_enablesWord (bytes : Vector (Option Byte) 64) : (slotCopy bytes).enablesWord = false := by
  simp [MailboxCopy.enablesWord, slotCopy, noBytes]

theorem commandBytes_enablesKind (kind : Nat) (fields : List SlotField) :
    (slotCopy (commandBytes kind fields)).enablesKind = true := by
  simp [MailboxCopy.enablesKind, slotCopy, commandBytes, slotByte]

/-- A command row's write changes the shadow by its bytes, and the command it names is decided and recorded. -/
theorem Block.commandWrite_eq (b : Block) (kind : Nat) (fields : List SlotField) (inHand : Bool)
    (h0 : kind ≠ 0) (h : kind < 2 ^ 32) :
    b.commandWrite kind fields inHand =
      (({ b with decoder := { b.decoder with
          slot := mergeShadow b.decoder.slot (commandBytes kind fields) } } : Block).decideCommand kind inHand).1.recordCommand
        kind
        (({ b with decoder := { b.decoder with
          slot := mergeShadow b.decoder.slot (commandBytes kind fields) } } : Block).decideCommand kind inHand).2 := by
  have hk := kind_merged b.decoder.slot kind fields h
  simp only [Block.commandWrite, Block.decodeCopy, slotCopy_enablesWord, commandBytes_enablesKind,
    Block.mergeCopy_slotCopy, Block.takeCommand, Decoder.kind, Decoder.argument]
  simp [h0, hk]

/-- The block with a command row's write in the shadow, as the owner of the command sees it. -/
def Block.copied (b : Block) (kind : Nat) (fields : List SlotField) : Block :=
  { b with decoder := { b.decoder with slot := mergeShadow b.decoder.slot (commandBytes kind fields) } }

@[simp] theorem Block.copied_frame (b : Block) (kind : Nat) (fields : List SlotField) :
    (b.copied kind fields).capture = b.capture ∧ (b.copied kind fields).system = b.system
    ∧ (b.copied kind fields).memory = b.memory ∧ (b.copied kind fields).master = b.master
    ∧ (b.copied kind fields).store = b.store ∧ (b.copied kind fields).tracker = b.tracker
    ∧ (b.copied kind fields).joints = b.joints ∧ (b.copied kind fields).tally = b.tally
    ∧ (b.copied kind fields).line = b.line ∧ (b.copied kind fields).writer = b.writer
    ∧ (b.copied kind fields).logs = b.logs ∧ (b.copied kind fields).blockSequence = b.blockSequence
    ∧ (b.copied kind fields).stamp = b.stamp ∧ (∀ i, (b.copied kind fields).port i = b.port i) := by
  simp only [Block.copied, true_and]
  intro i
  cases i <;> simp only [Block.port]

/-- What a command row does, by what its owner decides: the count, the kind and the outcome are recorded, and one rewrite
is asked for, whether the owner asked for one or not (R185). -/
theorem Block.commandWrite_decided (b : Block) (kind : Nat) (fields : List SlotField) (inHand : Bool)
    (h0 : kind ≠ 0) (h : kind < 2 ^ 32) (c : Block) (o : CommandOutcome)
    (hd : (b.copied kind fields).decideCommand kind inHand = (c, o))
    (hm : (c.master = b.master ∧ c.stamp = b.stamp)
      ∨ (c.master = b.askRewrite.master ∧ c.stamp = b.askRewrite.stamp)) :
    b.commandWrite kind fields inHand =
      { c with
        master := b.askRewrite.master
        stamp := b.askRewrite.stamp
        decoder := { c.decoder with
          commandCount := c.decoder.commandCount + 1
          lastKind := BitVec.ofNat 32 kind
          lastOutcome := o } } := by
  have hd' : (({ b with decoder := { b.decoder with
      slot := mergeShadow b.decoder.slot (commandBytes kind fields) } } : Block).decideCommand kind inHand) = (c, o) :=
    hd
  rw [Block.commandWrite_eq b kind fields inHand h0 h, hd', Block.recordCommand]
  rcases hm with ⟨h1, h2⟩ | ⟨h1, h2⟩
  · have hc := Block.askRewrite_congr (b := { c with decoder := { c.decoder with
      commandCount := c.decoder.commandCount + 1, lastKind := BitVec.ofNat 32 kind, lastOutcome := o } }) (c := b) h1 h2
    apply Block.eq_of_parts <;> first | exact hc.1 | exact hc.2 | simp
  · have hc := Block.askRewrite_congr (b := { c with decoder := { c.decoder with
      commandCount := c.decoder.commandCount + 1, lastKind := BitVec.ofNat 32 kind, lastOutcome := o } })
      (c := b.askRewrite) h1 h2
    rw [Block.askRewrite_askRewrite] at hc
    apply Block.eq_of_parts <;> first | exact hc.1 | exact hc.2 | simp

/-- What a command row does when its owner changes nothing (R185, R186). -/
theorem Block.commandWrite_same (b : Block) (kind : Nat) (fields : List SlotField) (inHand : Bool)
    (h0 : kind ≠ 0) (h : kind < 2 ^ 32) (o : CommandOutcome)
    (hd : (b.copied kind fields).decideCommand kind inHand = (b.copied kind fields, o)) :
    b.commandWrite kind fields inHand = { b.askRewrite with decoder := b.decoder.took kind fields o } := by
  have hm : (b.copied kind fields).master = b.master ∧ (b.copied kind fields).stamp = b.stamp := by
    simp
  rw [Block.commandWrite_decided b kind fields inHand h0 h _ o hd (.inl hm)]
  apply Block.eq_of_parts <;> simp [Block.copied, Decoder.took]

/-- An argument of a command row, every byte of which its write carries. -/
theorem Block.copied_argument (b : Block) (kind : Nat) (fields : List SlotField) (off size value : Nat)
    (hoff : off + size ≤ 64) (hv : value < 256 ^ size)
    (hf : ∀ k < size, slotByte (off + k) (⟨0, 4, kind⟩ :: fields) = some (BitVec.ofNat 8 (value / 256 ^ k))) :
    (b.copied kind fields).decoder.argument off size = value := by
  show fieldAt (mergeShadow b.decoder.slot (commandBytes kind fields)).toList off size = value
  rw [fieldAt_merged _ kind fields off size value hoff hf, Nat.mod_eq_of_lt hv]

end Sys2Proof.Machine
end

