-- ==== Sys2Proof/Tests/Slice0.lean ====
section
/-! SUPPORT. Tests. The first part checks the model on worked examples of the spec, each named in its comment; the second
shows, for every statement with hypotheses, a state and operands that meet them (clause by clause, at the boundary of a
range where a clause has one). -/

namespace Sys2Proof.Tests
open Sys2Proof.Machine

/-! ### Helpers -/

/-- The block after reset with nothing in the internal master's queue. -/
def bare : Block := { State.reset.block with master := ⟨[], []⟩ }

/-- A state with this block and no command waiting. -/
def on (b : Block) : State := ⟨b, []⟩

/-- The block after one command. -/
def after (c : Instr) (b : Block) : Block :=
  match exec c (on b) with
  | .next t => t.block
  | _ => b

/-- Bytes of the slot set from an offset on, the others not carried. -/
def slotBytes (offset : Nat) (bytes : List Byte) : Vector (Option Byte) 64 :=
  Vector.ofFn fun k => if k.1 < offset then none else bytes[k.1 - offset]?

/-- A request with the parity that R129 asks for. -/
def goodRequest (dir : Direction) : Request := ⟨0x41, 0x0200000000, 0, requestParity 0x41 0x0200000000 0 dir⟩

/-- A request with the other parity. -/
def badRequest (dir : Direction) : Request := { goodRequest dir with parity := !(goodRequest dir).parity }

theorem goodRequest_ok (dir : Direction) : requestParityOk (goodRequest dir) dir = true := by
  simp [requestParityOk, goodRequest]

theorem badRequest_fails (dir : Direction) : requestParityOk (badRequest dir) dir = false := by
  simp [requestParityOk, badRequest, goodRequest]

/-- The program of the worked sequence 12.1, with recipe 3 of 5.10.1 as its one recipe. -/
def recipe : Recipe := ⟨600, 24, 200, 16, 48, 96, 40, 600, 2⟩
def joint0 : Joint := ⟨0, ⟨28, 35, 2, 4⟩, 0, .critical, none⟩
def joint1 : Joint := ⟨1, ⟨40, 47, 3, 5⟩, 0, .critical, some ⟨48, 51, 3, 5⟩⟩
def program : Program :=
  ⟨⟨0x101, 0x0200000000, 64, 8, 256, [⟨0x41, 0, 31⟩, ⟨0x42, 32, 63⟩], 1, 2⟩, [recipe], [joint0, joint1]⟩

/-- A one-beat write of lane 0 with all its beats. -/
def whole : BufferedWrite :=
  { stamp := 0, master := 0x41, addr := 0x0200000000, beats := 0, policy := .mark, taken := [⟨0, 0xFFFF, false⟩]
    state := .waiting, inspected := false, doomed := false }

/-- The same write before its beat. -/
def unfinished : BufferedWrite := { whole with taken := [], state := .taking }

/-! ### Worked examples of the spec -/

/-- 3.9.1: a pixel by its channels and mark. -/
def pixel (l m t mark : Nat) (strobes : BitVec 4) : Pixel :=
  ⟨0, BitVec.ofNat 32 (l + 1024 * m + 1048576 * t + 1073741824 * mark), strobes⟩

/-- 3.9.1, the eight pixels under dark_sum 600 and g 24. -/
theorem test_eight_pixels :
    ([pixel 120 200 400 0 15, pixel 150 380 360 0 15, pixel 100 420 300 0 15, pixel 600 250 200 0 15,
      pixel 180 190 200 0 15, pixel 1023 1023 1023 1 15, pixel 400 400 400 2 15, pixel 300 350 500 0 7].foldl
        (Counts.addPixel recipe) ⟨0, 0, 0, 0, 0, 0, 0, 0⟩)
      = ⟨1, 1, 1, 2, 1, 2, 1, 7119⟩ := by decide

/-- The record of 5.10.2 (a darker joint). -/
def darker : Accumulator :=
  { index := 17, region := ⟨200, 219, 50, 65⟩, gap := some ⟨222, 225, 50, 65⟩, recipe := 0
    counts := ⟨60, 50, 40, 22, 140, 8, 3, 352400⟩, gapPart := some ⟨none, 0, 0⟩, damaged := false, order := false
    waitSet := [0], completionRow := 65 }

/-- 5.10.2: the measurement, the defects and the verdict. -/
theorem test_darker_joint :
    darker.measure = ⟨249, 2, 49, 41, 32, 114, 1129⟩
    ∧ darker.judge recipe .completed = (.nonwet, none, ⟨false, true, true, false⟩) := by decide

/-- 5.10.4: with sat_max 255 a fully overexposed region is SATURATED. -/
theorem test_saturated_region :
    let a : Accumulator := { darker with
      region := ⟨0, 255, 0, 255⟩, counts := ⟨0, 0, 0, 65536, 0, 0, 65536, 201129984⟩, gap := none, gapPart := none }
    (a.judge { recipe with satMax := 256, minValid := 256 } .completed).1 = .insufficient
    ∧ (a.judge { recipe with satMax := 255, minValid := 256 } .completed).2.1 = some .saturated := by decide

/-- 12.1: the wait sets and completion rows of the two joints. -/
theorem test_wait_sets :
    program.header.waitSet joint0 = [0, 1] ∧ joint0.completionRow = 4
    ∧ program.header.waitSet joint1 = [1] ∧ joint1.completionRow = 5 := by decide

/-- 11.4.1: the JOINT record of the darker joint. -/
theorem test_joint_record :
    ({ frame := 240, index := 17, label := 0x0311, verdict := .nonwet, cause := none
       defects := ⟨false, true, true, false⟩, measurement := some ⟨249, 2, 49, 41, 32, 114, 1129⟩
       bridgedRows := some 0, order := false, incomplete := false, advisory := false } : JointResult).bytes
      = [1, 3, 0, 6, 0, 3, 0, 0, 240, 0, 17, 0, 0x11, 0x03, 249, 0, 2, 0, 49, 0, 41, 0, 32, 0, 114, 0, 0x69, 0x04,
         0, 0, 0, 0] := by decide

/-- 11.3: the second read of a program of 3 recipes and 5 joints covers 11 beats; joint 2 holds offset 160. -/
theorem test_second_fetch :
    let l : Load := ⟨0, some { program.header with recipeCount := 3, jointCount := 5 }, [], [], [], 64, none⟩
    beatCount l.nextBeats = 11 ∧ l.failIndex 160 = 2 ∧ l.failIndex 96 = 2 := by decide

/-- 1.8.1: LOAD_PROGRAM after a full reset loads into bank 0; with bank 0 ACTIVE, into bank 1; a READY bank is the target. -/
theorem test_load_targets :
    (ProgramStore.loadTarget ⟨.empty, .empty, ⟨none, none, 0⟩⟩) = .bank0
    ∧ (ProgramStore.loadTarget ⟨.active program, .empty, ⟨none, none, 0⟩⟩) = .bank1
    ∧ (ProgramStore.loadTarget ⟨.active program, .ready program, ⟨none, none, 0⟩⟩) = .bank1 := by decide

/-- 6.10.1: the line of the three boards. -/
def line1 : Line :=
  { Line.fresh with
    position := 21300, gateMode := .active, driver := .driving .pass (some 21400) (some 10)
    config := { LineConfig.fresh with valid := true, diverter := 20000, window := 400, deadTime := 3000 } }

/-- 6.10.1: board 11 cuts board 10's window; board 12's action joins it; DEAD ends and the line is driven to 21,900. -/
theorem test_cut_and_joined :
    (line1.takeAction .reject 21700 11).driver = .dead .pass 3000 (some (.action .reject 21700 11))
    ∧ ((line1.takeAction .reject 21700 11).takeAction .reject 21900 12).driver
        = .dead .pass 3000 (some (.action .reject 21900 12))
    ∧ ({ line1 with position := 21600 }.endDead (some (.action .reject 21900 12))).driver
        = .driving .reject (some 21900) (some 12) := by decide

/-- 12.3: a pending action whose end has passed is driven and let go at once. -/
theorem test_pulse :
    ({ line1 with position := 50400 }.endDead (some (.action .reject 50300 20))).driver = .dead .reject 3000 none := by
  decide

/-- 6.10.2: the edge filter with a run count of 3 and 7 boards, and then 8. -/
def line2 (boards : Nat) : Line :=
  { line1 with
    runCount := 3, serial := 37, queue := List.replicate boards ⟨30, 0, 20000, .awaitingImage⟩
    driver := .idle }

theorem test_seventh_sample :
    (after (.boardEdgeSample true) { bare with line := line2 7 }).line.queue.getLast?
      = some ⟨37, 21300, 41300, .awaitingImage⟩
    ∧ (after (.boardEdgeSample true) { bare with line := line2 7 }).line.serial = 38
    ∧ (after (.boardEdgeSample false) { bare with line := line2 7 }).line.runCount = 0 := by decide

theorem test_full_queue :
    (after .boardEdgeLeading { bare with line := line2 8 }).line.untracked = 1
    ∧ (after .boardEdgeLeading { bare with line := line2 8 }).line.gateMode = .held
    ∧ (after .boardEdgeLeading { bare with line := line2 8 }).line.driver = .driving .reject none none := by decide

/-- R99: 00, 10, 11, 01 counts up under NORMAL. -/
theorem test_encoder_counts_up :
    (after (.encoderStep true false)
      { bare with line := { Line.fresh with lastSample := some (false, false) } }).line.position = 1
    ∧ (after (.encoderStep true false)
      { bare with line := { Line.fresh with lastSample := some (true, true) } }).line.position = 4294967295 := by
  decide

/-- 9.9: the ring of size 16 with interrupt enable ON. -/
def ringWriter (producer consumer : Counter) : RecordWriter :=
  { RecordWriter.fresh with
    ring := some ⟨0x0100000000, 16, true⟩, producer := producer, consumer := consumer, ringIrq := producer != consumer }

/-- 9.9, its last row: a consumer value of 40 against producer index 18 is clamped and reported, RING_IRQ inactive. -/
theorem test_clamped_consumer :
    let b := after (.consumerUpdate 5 0x7FF0000040 #v[some 40, some 0, some 0, some 0])
      { bare with writer := ringWriter 18 16 }
    b.writer.consumer = 18 ∧ b.writer.ringIrq = false
    ∧ b.logs.system.held = some ⟨.sConsumerRange, .minor, 5, 0x7FF0000040, 0⟩ := by decide

/-- 9.9: a consumer value of 10 against producer index 16 is taken. -/
theorem test_taken_consumer :
    (after (.consumerUpdate 5 0x7FF0000040 #v[some 10, some 0, some 0, some 0])
      { bare with writer := ringWriter 16 0 }).writer.consumer = 10 := by decide

/-- 8.9.1: capture, system and internal present after a grant of capture; system is granted, then internal. -/
theorem test_arbiter_order :
    let b : Block := { bare with
      capture := { Port.fresh .mark with buffer := [{ whole with state := .ready }] }
      system := { Port.fresh .mark with reads := [⟨1, 5, 0x0100000000, 0, .allOnes⟩] }
      master := ⟨[⟨2, .slotWrite 0x0300000000 0 0⟩], []⟩
      memory := ⟨[], 2000, .capture, []⟩ }
    (after (.arbiterGrant 0 false) b).memory.lastGrantee = .system
    ∧ (after (.arbiterGrant 0 false) (after (.arbiterGrant 0 false) b)).memory.lastGrantee = .internal := by decide

/-- R182: the window base for MBX_SEL = 3 (the example 10.10 names 0x7F_F003_0000). -/
theorem test_window_base : windowBaseOf 3 = 0x7FF0030000 := by decide

/-- 10.10: the kind word 4 alone takes SET_LINE; with two boards in the queue it is WRONG_STATE and counted. -/
theorem test_refused_set_line :
    let b : Block := { bare with line := line2 2 }
    let b := after (.mailboxShadowWrite (slotBytes 4 [1, 0, 0, 0, 1, 0, 0, 0, 0, 0, 0, 0, 0, 0, 0, 0, 0, 0, 0, 0, 0])) b
    b.decoder.commandCount = 0
    ∧ ((b.decodeCopy (slotCopy (slotBytes 0 [4, 0, 0, 0])) false).decoder.lastOutcome = .wrongState)
    ∧ (b.decodeCopy (slotCopy (slotBytes 0 [4, 0, 0, 0])) false).decoder.commandCount = 1 := by decide

/-- 12.4: RESUME_PORT with a FATAL capture log is WRONG_STATE; after CLEAR_LOG the kind word 7 alone opens the port. -/
theorem test_recover_capture_port :
    let b : Block := { bare with
      capture := { Port.fresh .contain with containment := .contained }
      logs := { bare.logs with capture := ⟨some ⟨.cDataParity, .fatal, 0x41, 0, 0⟩, false⟩ } }
    (after (.resumePort 1) b).decoder.lastOutcome = .wrongState
    ∧ ((after (.clearLog 1) b).decodeCopy (slotCopy (slotBytes 0 [7, 0, 0, 0])) false).capture.containment = .opened
    := by decide

/-- R203: the first bytes of the status block right after power-on. -/
theorem test_status_block_after_reset :
    State.reset.block.statusBytes.length = 256 ∧ State.reset.block.statusBytes.take 20
      = [0, 0, 0, 0, 1, 0, 0, 0, 0, 0, 0, 0, 0, 0, 0, 0, 0, 0, 0xFF, 0] := by decide +kernel

/-! ### WellFormed: an ill-formed term for each check, which the check refuses -/

theorem test_wellFormed_refuses :
    (Instr.memoryResponse 56 .okay []).wellFormed = false
    ∧ (Instr.memoryResponse 0 .okay (List.replicate 17 0)).wellFormed = false
    ∧ (Instr.responseTimerExpiry 56).wellFormed = false
    ∧ (Instr.consumerUpdate 0 0 #v[none, none, none, none]).wellFormed = false
    ∧ (Instr.unknownKind 9).wellFormed = false ∧ (Instr.unknownKind 0).wellFormed = false
    ∧ (Instr.mailboxShadowWrite (slotBytes 0 [7, 0, 0, 0])).wellFormed = false
    ∧ (Instr.mailboxShadowWrite (slotBytes 0 [7])).wellFormed = false := by decide

theorem test_wellFormed_admits :
    (Instr.memoryResponse 55 .okay (List.replicate 16 0)).wellFormed = true
    ∧ (Instr.responseTimerExpiry 55).wellFormed = true
    ∧ (Instr.consumerUpdate 0 0 #v[none, none, none, some 0]).wellFormed = true
    ∧ (Instr.unknownKind 10).wellFormed = true
    ∧ (Instr.mailboxShadowWrite (slotBytes 4 [7])).wellFormed = true
    ∧ (Instr.mailboxShadowWrite (slotBytes 0 [0, 0, 0, 0])).wellFormed = true := by decide

/-! ### Witnesses: ports -/

theorem test_witness_step :
    (⟨bare, [.closing]⟩ : State).pending = .closing :: [] ∧ (on bare).pending = [] := ⟨rfl, rfl⟩

/-- A port whose buffer holds `n` writes and that holds `m` reads of another master ID. -/
def loaded (n m : Nat) : Port :=
  { Port.fresh .mark with
    buffer := List.replicate n whole
    unanswered := List.replicate m ⟨0, 7, .read, true, none⟩ }

def loadedBlock (n m : Nat) (c : Containment) : Block :=
  { bare with capture := { loaded n m with containment := c }, stamp := 1 }

theorem test_witness_requests :
    (((loadedBlock 7 0 .opened).port .capture).buffer.length < 8 ∧ requestParityOk (goodRequest .write) .write = true)
    ∧ (((loadedBlock 0 15 .opened).port .capture).readsHeld < 16 ∧ requestParityOk (goodRequest .read) .read = true
      ∧ ((loadedBlock 0 15 .opened).port .capture).containment = .opened)
    ∧ 8 ≤ ((loadedBlock 8 0 .opened).port .capture).buffer.length
    ∧ 16 ≤ ((loadedBlock 0 16 .opened).port .capture).readsHeld := by
  simp only [goodRequest_ok]; decide

theorem test_witness_contained_read :
    let b := loadedBlock 0 15 .contained
    (b.port .capture).readsHeld < 16 ∧ requestParityOk (goodRequest .read) .read = true
    ∧ (b.port .capture).containment = .contained
    ∧ ∀ q ∈ (b.port .capture).unanswered, q.stamp ≠ b.stamp ∧ q.sameKind 0x41 .read = false := by
  simp only [goodRequest_ok]; decide

/-- A read of master ID 0x41 behind an open one, and behind one of another master ID; the fresh number is 9. -/
def behindBlock (c : Containment) : Block :=
  { bare with
    capture := { Port.fresh .mark with
      unanswered := [⟨1, 7, .read, true, none⟩, ⟨2, 0x41, .read, true, none⟩, ⟨3, 0x41, .write, false, none⟩]
      containment := c }
    stamp := 9 }

theorem test_witness_read_behind :
    requestParityOk (goodRequest .read) .read = true ∧ requestParityOk (badRequest .read) .read = false
    ∧ ∀ c ∈ [Containment.opened, .contained],
      let p := (behindBlock c).port .capture
      p.readsHeld < 16 ∧ p.containment = c
      ∧ p.unanswered = [⟨1, 7, .read, true, none⟩] ++ ⟨2, 0x41, .read, true, none⟩ :: [⟨3, 0x41, .write, false, none⟩]
      ∧ (∀ x ∈ p.unanswered, x.stamp ≠ (behindBlock c).stamp)
      ∧ (∀ x ∈ ([⟨1, 7, .read, true, none⟩] : List OpenRequest), x.sameKind 0x41 .read = false)
      ∧ (⟨2, 0x41, .read, true, none⟩ : OpenRequest).sameKind 0x41 .read = true := by
  simp only [goodRequest_ok, badRequest_fails]; decide

/-- R136, R148, R149: the contained read waits with its place; once the earlier one is answered, both answers go. -/
theorem test_contained_read_waits :
    let b := (behindBlock .contained).takeRead .capture (goodRequest .read)
    b.capture.given = [] ∧ b.capture.readsHeld = 3
    ∧ (b.capture.answer 2 .error [5]).given
      = [⟨0x41, .read, .error, [5]⟩, ⟨0x41, .read, .okay, [BitVec.allOnes 128]⟩] := by decide

theorem test_witness_parity_failure :
    (((loadedBlock 7 0 .opened).port .capture).buffer.length < 8 ∧ requestParityOk (badRequest .write) .write = false)
    ∧ (((loadedBlock 0 15 .opened).port .capture).readsHeld < 16 ∧ requestParityOk (badRequest .read) .read = false
      ∧ ∀ q ∈ ((loadedBlock 0 15 .opened).port .capture).unanswered,
          q.stamp ≠ (loadedBlock 0 15 .opened).stamp ∧ q.sameKind 0x41 .read = false)
    ∧ (((loadedBlock 1 0 .opened).port .capture).failing = []
      ∧ ∀ v ∈ ((loadedBlock 1 0 .opened).port .capture).buffer, v.state ≠ .taking) := by
  simp only [badRequest_fails]; decide

/-- A port that waits for `n` beats of a write whose request parity failed. -/
def failingBlock (n : Nat) : Block :=
  { bare with capture := { Port.fresh .mark with
      failing := [⟨3, n⟩], unanswered := [⟨3, 0x41, .write, false, none⟩] } }

/-- A beat of a write that the last full reset has lost, and one of no such write. -/
def lostBeat : WriteBeat := ⟨0, 0xFFFF, 0xFFFF, true⟩
def goodBeat : WriteBeat := { lostBeat with ofLostWrite := false }

theorem test_witness_failed_beats :
    let b := failingBlock 1
    (b.port .capture).failing = [⟨3, 1⟩] ∧ (∀ v ∈ (b.port .capture).buffer, v.state ≠ .taking)
    ∧ (b.port .capture).unanswered = [⟨3, 0x41, .write, false, none⟩] ∧ 2 ≤ (2 : Nat)
    ∧ ((failingBlock 2).port .capture).failing = [⟨3, 2⟩]
    ∧ lostBeat.ofLostWrite = true ∧ goodBeat.ofLostWrite = false := by decide

/-- A system port with one write that lacks `beats` + 1 beats. -/
def takingBlock (beats : BeatField) (policy : Policy) : Block :=
  { bare with system := { Port.fresh .mark with
      buffer := [{ unfinished with stamp := 3, beats := beats, policy := policy }]
      unanswered := [⟨3, 0x41, .write, false, none⟩] } }

theorem test_witness_beats :
    let w : BufferedWrite := { unfinished with stamp := 3, beats := 1 }
    let v : BufferedWrite := { unfinished with stamp := 3 }
    (goodBeat.ofLostWrite = false ∧ goodBeat.parity = beatParity goodBeat.data)
    ∧ (((takingBlock 1 .mark).port .system).failing = []
      ∧ ((takingBlock 1 .mark).port .system).buffer = [] ++ w :: []
      ∧ (((takingBlock 1 .mark).port .system).buffer.map (·.stamp)).Nodup
      ∧ w.state = .taking ∧ w.taken.length + 1 < beatCount w.beats)
    ∧ (((takingBlock 0 .mark).port .system).buffer = [] ++ v :: []
      ∧ (((takingBlock 0 .mark).port .system).buffer.map (·.stamp)).Nodup
      ∧ v.state = .taking ∧ v.doomed = false ∧ v.taken.length + 1 = beatCount v.beats) := by decide

/-- A capture port with a whole write, a write whose request parity failed, with `left` beats to come, a write behind
it that lacks a beat, and a second failed one. -/
def mixedBlock (left : Nat) : Block :=
  { bare with
    capture := { Port.fresh .contain with
      buffer := [{ whole with stamp := 1, master := 7 }, { unfinished with stamp := 5 }]
      failing := [⟨3, left⟩, ⟨8, 2⟩]
      unanswered := [⟨1, 7, .write, false, none⟩, ⟨3, 0x41, .write, false, none⟩, ⟨5, 0x42, .write, false, none⟩,
        ⟨8, 0x43, .write, false, none⟩] }
    stamp := 9 }

/-- The failed write is the oldest that lacks beats, with one beat left and with two; its request is the only open one
of its kind. -/
theorem test_witness_failed_before_buffered :
    ∀ left ∈ [1, 2],
      let p := (mixedBlock left).port .capture
      p.failing = ⟨3, left⟩ :: [⟨8, 2⟩] ∧ (∀ g ∈ ([⟨8, 2⟩] : List FailedWrite), g.stamp ≠ 3)
      ∧ (∀ v ∈ p.buffer, v.state = .taking → 3 < v.stamp)
      ∧ p.unanswered = [⟨1, 7, .write, false, none⟩] ++ ⟨3, 0x41, .write, false, none⟩ ::
          [⟨5, 0x42, .write, false, none⟩, ⟨8, 0x43, .write, false, none⟩]
      ∧ (p.unanswered.map (·.stamp)).Nodup
      ∧ (∀ r ∈ p.unanswered.eraseIdx 1, r.sameKind 0x41 .write = false) := by decide

/-- A write that lacks a beat between a whole one and another that lacks beats, older than every failed one; and at
the head of the system port's buffer, a whole one behind it. -/
theorem test_witness_buffered_before_failed :
    let w : BufferedWrite := { unfinished with stamp := 3 }
    let last : BufferedWrite := { unfinished with stamp := 5, beats := 1 }
    let p : Port := { Port.fresh .contain with
      buffer := [{ whole with stamp := 1 }, w, last], failing := [⟨4, 1⟩]
      unanswered := [⟨1, 7, .write, false, none⟩, ⟨3, 0x41, .write, false, none⟩, ⟨4, 7, .write, false, none⟩] }
    let q : Port := { p with buffer := [w, { whole with stamp := 5 }] }
    ((∀ f ∈ p.failing, w.stamp < f.stamp) ∧ p.buffer = [{ whole with stamp := 1 }] ++ w :: [last]
      ∧ (p.buffer.map (·.stamp)).Nodup ∧ (∀ v ∈ ([{ whole with stamp := 1 }] : List BufferedWrite), v.state ≠ .taking)
      ∧ w.state = .taking ∧ w.taken.length + 1 = beatCount w.beats
      ∧ p.unanswered = [⟨1, 7, .write, false, none⟩] ++ ⟨3, 0x41, .write, false, none⟩ :: [⟨4, 7, .write, false, none⟩]
      ∧ (p.unanswered.map (·.stamp)).Nodup ∧ (∀ r ∈ p.unanswered.eraseIdx 1, r.sameKind 0x41 .write = false))
    ∧ (q.buffer = [] ++ w :: [{ whole with stamp := 5 }] ∧ (q.buffer.map (·.stamp)).Nodup
      ∧ (∀ f ∈ q.failing, w.stamp < f.stamp)
      ∧ ({ w with beats := 1 } : BufferedWrite).taken.length + 1 < beatCount 1) := by decide

/-- At the system port: the head READY, a whole write behind it, and this one third, with its last beat to come. -/
theorem test_witness_third_write :
    let w : BufferedWrite := { unfinished with stamp := 5 }
    let older : List BufferedWrite := [{ whole with stamp := 1, state := .ready }, { whole with stamp := 3 }]
    (older ++ w :: []).map (·.stamp) = [1, 3, 5] ∧ (∀ v ∈ older, v.state ≠ .taking)
    ∧ (∀ v ∈ older.head?, v.state ≠ .waiting) ∧ w.state = .taking ∧ w.taken.length + 1 = beatCount w.beats
    ∧ (older.map (·.state)) = [.ready, .waiting] := by decide

/-- R134, R150: the third write of the system port becomes WAITING; a bad one under CONTAIN is FATAL, and the containment
discards the two before it as well. -/
theorem test_third_write :
    ∀ policy ∈ [Policy.mark, .contain],
      let b : Block := { bare with system := { Port.fresh .mark with
        buffer := [{ whole with stamp := 1, state := .ready }, { whole with stamp := 3 },
          { unfinished with stamp := 5, policy := policy }] } }
      ((after (.writeBeat .system goodBeat) b).system.buffer.map (·.state)) = [.ready, .waiting, .waiting]
      ∧ ((after (.writeBeat .system { goodBeat with parity := 0 }) b).system.buffer.map (·.state))
        = (match policy with
          | .mark => [.ready, .waiting, .waiting]
          | .contain => []) := by decide

/-- R146: beats in the order of the requests. The failed write takes its own beat, and the next one completes
the write behind it. -/
theorem test_beats_in_request_order :
    let b := after (.writeBeat .capture goodBeat) (mixedBlock 1)
    b.capture.failing = [⟨8, 2⟩] ∧ b.capture.given = [⟨0x41, .write, .error, []⟩]
    ∧ (after (.writeBeat .capture goodBeat) b).capture.buffer.map (·.state) = [.waiting, .waiting] := by decide

/-- R165: a beat of a lost write leaves the write that was taken since; that write's own beat completes it. -/
theorem test_lost_beat_is_dropped :
    (after (.writeBeat .system lostBeat) (takingBlock 0 .mark)).system.buffer
      = [{ unfinished with stamp := 3 }]
    ∧ ((after (.writeBeat .system goodBeat) (takingBlock 0 .mark)).system.buffer.map (·.state)) = [.ready] := by
  decide

theorem test_witness_bad_write :
    ∀ policy ∈ [Policy.mark, .contain], ∀ doomed ∈ [false, true],
      let w : BufferedWrite := { unfinished with stamp := 3, policy := policy, doomed := doomed }
      let b : Block := { bare with system := { (takingBlock 0 policy).system with buffer := [w] } }
      (b.port .system).failing = [] ∧ (b.port .system).buffer = [w]
      ∧ (b.port .system).unanswered = [⟨w.stamp, w.master, .write, false, none⟩]
      ∧ w.state = .taking ∧ w.doomed = doomed ∧ w.taken.length + 1 = beatCount w.beats
      ∧ { goodBeat with parity := 0 }.parity ≠ beatParity 0 ∧ goodBeat.parity = beatParity 0
      ∧ (∀ t ∈ w.taken, t.bad = false) ∧ w.policy = policy := by decide

/-- A capture port with a write to discard, one still taking beats, and two listed reads. -/
def stopBlock : Block :=
  { bare with capture := { Port.fresh .mark with
      buffer := [{ whole with stamp := 1 }, { unfinished with stamp := 4 }]
      reads := [⟨2, 7, 0x0100000000, 1, .allOnes⟩, ⟨3, 7, 0x0100000000, 0, .error⟩]
      unanswered := [⟨1, 0x41, .write, false, none⟩, ⟨2, 7, .read, true, none⟩, ⟨3, 7, .read, true, none⟩] } }

theorem test_witness_containment :
    ((loadedBlock 1 1 .contained).port .capture).containment = .contained
    ∧ ((loadedBlock 1 1 .opened).port .capture).containment = .opened
    ∧ ({ FrameTracker.fresh with state := .opened } : FrameTracker).state = .opened
    ∧ (loadedBlock 1 1 .opened).tracker.state ≠ .opened
    ∧ ({ LineConfig.fresh with holdOnContain := true } : LineConfig).holdOnContain = true
    ∧ (loadedBlock 1 1 .opened).line.config.holdOnContain = false
    ∧ (stopBlock.port .capture).containment = .opened
    ∧ (stopBlock.port .capture).unanswered =
        ((stopBlock.port .capture).buffer.filter fun w => !(decide (w.state = .taking) || w.inspected)).map
            (fun w => ⟨w.stamp, w.master, .write, false, none⟩)
          ++ (stopBlock.port .capture).reads.map (fun r => ⟨r.stamp, r.master, .read, true, none⟩)
    ∧ ((stopBlock.port .capture).unanswered.map (·.stamp)).Nodup := by decide

/-- R134: the discarded write is answered OKAY, then the reads with the fail responses they were taken under. -/
theorem test_containment_answers :
    (stopBlock.containPort .capture).capture.given =
      [⟨0x41, .write, .okay, []⟩, ⟨7, .read, .okay, List.replicate 2 (BitVec.allOnes 128)⟩, ⟨7, .read, .error, [0]⟩]
    ∧ (stopBlock.containPort .capture).capture.buffer = [{ unfinished with stamp := 4, doomed := true }] := by decide

/-- Three open requests of one kind, the first of these states. -/
def openThree (first third : Option Answer) : Port :=
  { Port.fresh .mark with unanswered :=
      [⟨0, 1, .read, true, first⟩, ⟨1, 1, .read, true, none⟩, ⟨2, 1, .read, true, third⟩] }

theorem test_witness_answers :
    let a : Answer := ⟨1, .read, .okay, [0]⟩
    -- the oldest of its kind, with an undecided one behind it
    ((openThree none none).unanswered = [] ++ ⟨0, 1, .read, true, none⟩ :: (openThree none none).unanswered.tail
      ∧ ((openThree none none).unanswered.map (·.stamp)).Nodup
      ∧ ∀ r ∈ (openThree none none).unanswered.tail, r.sameKind 1 .read = true → r.decided = none)
    -- one that waits behind an undecided request
    ∧ ((openThree none (some a)).unanswered =
        [⟨0, 1, .read, true, none⟩] ++ ⟨1, 1, .read, true, none⟩ :: [⟨2, 1, .read, true, some a⟩]
      ∧ (⟨0, 1, .read, true, none⟩ : OpenRequest).sameKind 1 .read = true)
    -- the oldest of its kind, with a decided one behind it
    ∧ ({ openThree none (some a) with unanswered := (openThree none (some a)).unanswered.tail } : Port).unanswered =
        [] ++ ⟨1, 1, .read, true, none⟩ :: [⟨2, 1, .read, true, some a⟩]
    ∧ (⟨2, 1, .read, true, some a⟩ : OpenRequest).sameKind 1 .read = true := by decide

/-- R149: the answer to the oldest request of its kind lets the decided one behind it go, up to the undecided one; the
request of another kind stays. An earlier request that is decided goes too. -/
theorem test_witness_answer_runs :
    let a : Answer := ⟨1, .read, .okay, [0]⟩
    let open_ := fun (stamp : Nat) (d : Option Answer) => (⟨stamp, 1, .read, true, d⟩ : OpenRequest)
    let other : OpenRequest := ⟨9, 2, .read, true, none⟩
    let p : Port := { Port.fresh .mark with
      unanswered := [open_ 0 none, other, open_ 1 (some a), open_ 2 none, open_ 3 (some a)] }
    let q : Port := { Port.fresh .mark with unanswered := [open_ 0 (some a), open_ 1 none, open_ 2 none] }
    let marked := [open_ 0 (some ⟨1, .read, .error, [7]⟩), other, open_ 1 (some a), open_ 2 none, open_ 3 (some a)]
    (marked = [open_ 0 (some ⟨1, .read, .error, [7]⟩), other, open_ 1 (some a)] ++ [open_ 2 none, open_ 3 (some a)]
      ∧ (p.unanswered.map (·.stamp)).Nodup ∧ other.sameKind 1 .read = false
      ∧ (open_ 1 (some a)).sameKind 1 .read = true ∧ (open_ 2 none).sameKind 1 .read = true)
    ∧ ((p.answer 0 .error [7]).given = [⟨1, .read, .error, [7]⟩, a]
      ∧ (p.answer 0 .error [7]).unanswered = [other, open_ 2 none, open_ 3 (some a)])
    ∧ (q.unanswered = [open_ 0 (some a)] ++ open_ 1 none :: [open_ 2 none]
      ∧ (q.unanswered.map (·.stamp)).Nodup ∧ (q.answer 1 .error [7]).unanswered = [open_ 2 none]
      ∧ (q.answer 1 .error [7]).given = [a, ⟨1, .read, .error, [7]⟩]) := by decide

/-! ### Witnesses: frames, joints, boards -/

/-- A block with the write of lane 0 at the head of the capture port, in a frame state, on these banks. -/
def offerBlock (w : WriteState) (state : FrameState) (store : ProgramStore) : Block :=
  { bare with
    capture := { Port.fresh .mark with buffer := [{ whole with state := w }] }
    tracker := { FrameTracker.fresh with state := state }
    store := store
    line := { Line.fresh with queue := [⟨5, 1000, 21000, .awaitingImage⟩] } }

def running : ProgramStore := ⟨.active program, .empty, ⟨none, none, 0⟩⟩

theorem test_witness_offer :
    (∀ f ∈ [FrameState.opened, .closing],
      let b := offerBlock .waiting f running
      b.tracker.burst = none ∧ b.capture.buffer = [whole] ∧ b.capture.containment = .opened
      ∧ b.tracker.state = f ∧ b.store.activeProgram = some program ∧ program.header.inspectable whole = some 0)
    -- a burst in progress, a CONTAINED port, a HELD write outside IDLE, a write taking beats, one READY
    ∧ ({ FrameTracker.fresh with burst := some ⟨0x41, 0, 0, false, false, []⟩ } : FrameTracker).burst ≠ none
    ∧ (loadedBlock 1 0 .contained).capture.containment = .contained
    ∧ (∀ f ∈ [FrameState.opened, .closing], (offerBlock .held f running).capture.buffer = [{ whole with state := .held }]
      ∧ (offerBlock .held f running).tracker.state ≠ .idle)
    ∧ unfinished.state = .taking ∧ ({ whole with state := .ready } : BufferedWrite).state = .ready
    -- a write that passes, a line beyond the frame window, against the ACTIVE program and against the candidate
    ∧ program.header.inspectable { whole with addr := 0x0200000800 } = none
    ∧ program.header.inspectable { whole with addr := 0x02000007F0 } = some 0
    ∧ (∀ w ∈ [WriteState.waiting, .held], (offerBlock w .idle running).capture.buffer = [{ whole with state := w }]
      ∧ (offerBlock w .idle running).store.candidate = some program)
    ∧ (offerBlock .waiting .idle bare.store).store.candidate = none
    -- in CLOSING against a READY program that is not the ACTIVE one
    ∧ (⟨.ready { program with recipes := [] }, .active program, ⟨none, none, 0⟩⟩ : ProgramStore).candidate
      = some { program with recipes := [] } := by decide

/-- R24, R26 to R28: windows of 64 columns and 8 rows; a write at its first and last byte, and beyond each end. -/
theorem test_witness_inspectable :
    program.header.inspectable { whole with master := 0x42, addr := 0x0200000000 } = some 1
    ∧ program.header.inspectable { whole with master := 0x42, addr := 0x02000007FF } = some 1
    ∧ program.header.inspectable { whole with master := 0x42, addr := 0x01FFFFFFFF } = none
    ∧ program.header.inspectable { whole with master := 0x42, addr := 0x0200000800 } = none
    ∧ program.header.base.toNat + program.header.height * program.header.pitch - 1 = 0x02000007FF
    ∧ program.header.lanes = [⟨0x41, 0, 31⟩] ++ ⟨0x42, 32, 63⟩ :: []
    ∧ (∀ l ∈ program.header.lanes, l.master ≠ 0x43)
    ∧ program.header.lanes[1]? = some ⟨0x42, 32, 63⟩ ∧ program.header.base.toNat % 16 = 0
    ∧ program.header.pitch % 16 = 0 := by decide

/-- R26 to R28 on a frame of width 6, pitch 32 and a lane of columns 2 to 5: two beats from byte 12 on touch row 0; the
padding is dropped, column 3 is partial, no column is out of lane, and one segment is left. A third beat in row 1 has
columns 0 and 1 out of lane. -/
theorem test_burst_segments :
    let h : Header := { program.header with width := 6, height := 2, pitch := 32, lanes := [⟨0x41, 2, 5⟩] }
    let beat : TakenBeat := ⟨0, 0xFFFF, false⟩
    let two := makeBurst h 0 { whole with addr := 0x020000000D, beats := 1, taken := [beat, beat] }
    let three := makeBurst h 0 { whole with addr := 0x0200000010, beats := 1, taken := [beat, beat] }
    two.segments.map (fun s => (s.row, s.first, s.last, s.pixels.map (·.strobes))) = [(0, 2, 5, [0, 14, 15, 15])]
    ∧ two.outOfLane = false
    ∧ three.segments.map (fun s => (s.row, s.first, s.last)) = [(0, 4, 5), (1, 2, 3)] ∧ three.outOfLane = true := by
  decide +kernel

/-- R42: a write HELD against a READY bank stays held in CLOSING when LOAD_PROGRAM takes that bank, and is judged
again once the frame is IDLE. -/
theorem test_held_until_idle :
    let other : Program := { program with header := { program.header with base := 0x0300000000 } }
    let b := offerBlock .waiting .closing ⟨.active other, .ready program, ⟨none, none, 0⟩⟩
    let held := after .burstOffer b
    let taken := after (.loadProgram 0x0100000000) held
    held.capture.buffer.map (·.state) = [.held] ∧ taken.store.candidate = some other
    ∧ (after .burstOffer taken).capture.buffer.map (·.state) = [.held]
    ∧ (after .burstOffer { taken with tracker := { taken.tracker with state := .idle } }).capture.buffer.map (·.state)
      = [.ready] := by decide

/-- The banks and boards of a frame open: READY in either bank, the other ACTIVE or EMPTY; ACTIVE alone, the other
EMPTY or LOADING; a board to bind behind one that is judged, or none. -/
theorem test_witness_frame_open :
    (∀ w ∈ [WriteState.waiting, .held],
      (offerBlock w .idle running).capture.buffer = [{ whole with state := w }]
      ∧ program.header.inspectable { whole with state := w } = some 0
      ∧ (offerBlock w .idle running).tracker.burst = none ∧ (offerBlock w .idle running).tracker.state = .idle
      ∧ (offerBlock w .idle running).capture.containment = .opened)
    ∧ (∀ i ∈ [BankId.bank0, .bank1], ∀ other ∈ [Bank.active program, .empty],
      let store := ((⟨.empty, .empty, ⟨none, none, 0⟩⟩ : ProgramStore).setBank i (.ready program)).setBank i.other other
      store.bank i = .ready program ∧ (store.bank i.other).load? = none ∧ (store.bank i.other).ready? = none)
    ∧ (∀ i ∈ [BankId.bank0, .bank1], ∀ other ∈ [Bank.empty, .loading ⟨0x0100000000, none, [], [], [], 0, none⟩],
      let store := ((⟨.empty, .empty, ⟨none, none, 0⟩⟩ : ProgramStore).setBank i (.active program)).setBank i.other other
      store.bank i = .active program ∧ (store.bank i.other).ready? = none ∧ (store.bank i.other).active? = none)
    ∧ ([⟨4, 900, 20900, .judged 3 .pass⟩, ⟨5, 1000, 21000, .awaitingImage⟩] : List Board)
      = [⟨4, 900, 20900, .judged 3 .pass⟩] ++ ⟨5, 1000, 21000, .awaitingImage⟩ :: []
    ∧ (∀ x ∈ ([⟨4, 900, 20900, .judged 3 .pass⟩] : List Board), x.state ≠ .awaitingImage) := by
  refine ⟨by decide, by decide, by decide, by decide, by decide⟩

def seg (row first last : Nat) : Segment := ⟨row, first, last, []⟩

/-- Lane 0 at row 1, column 4, with a burst of two segments. -/
def segBlock (row first : Nat) : Block :=
  { bare with
    store := running
    tracker := { FrameTracker.fresh with
      state := .opened, progress := [⟨1, 4, 0⟩, ⟨0, 32, -1⟩]
      burst := some ⟨0x41, 0x0200000100, 0, false, false, [seg row first (first + 3), seg 2 0 3]⟩ }
    joints := ⟨[], 0⟩ }

theorem test_witness_segment :
    (∀ p ∈ [(1, 4), (1, 3), (0, 31), (2, 0)],
      (segBlock p.1 p.2).tracker.burst
        = some ⟨0x41, 0x0200000100, 0, false, false, [seg p.1 p.2 (p.2 + 3), seg 2 0 3]⟩
      ∧ (segBlock p.1 p.2).store.activeProgram = some program
      ∧ (segBlock p.1 p.2).tracker.progress[0]? = some ⟨1, 4, 0⟩
      ∧ (segBlock p.1 p.2).decoder.resetPending = false)
    -- a column before the next one, a row before the next one, and neither
    ∧ ((1 : Nat) = 1 ∧ (3 : Nat) < 4) ∧ ((0 : Nat) < 1) ∧ ¬ ((1 : Nat) < 1 ∨ ((1 : Nat) = 1 ∧ (4 : Nat) < 4))
    ∧ (seg 1 4 7).last ≠ (program.header.lane 0).last ∧ (seg 1 4 31).last = (program.header.lane 0).last := by decide

/-- R37, on a program of height 2: the last column of the last row of lane 0 closes the frame when lane 1 has closed
its last row. -/
theorem test_normal_close :
    let p : Program := ⟨{ program.header with height := 2 }, [recipe], []⟩
    let b := fun (watermark : Int) (outOfLane : Bool) => { segBlock 1 4 with
      store := ⟨.active p, .empty, ⟨none, none, 0⟩⟩
      tracker := { (segBlock 1 4).tracker with
        progress := [⟨1, 4, 0⟩, ⟨2, 32, watermark⟩]
        burst := some ⟨0x41, 0x0200000100, 0, false, outOfLane, [seg 1 4 31]⟩ } }
    (after .segment (b 1 false)).tracker.state = .closing ∧ (after .segment (b 0 false)).tracker.state = .opened
    ∧ (after .segment (b 1 true)).logs.capture.held = some ⟨.cLaneRange, .minor, 0x41, 0x0200000100, 0⟩ := by decide

/-- A burst without a segment, its C_LANE_RANGE due or not; and no burst. -/
def emptyBurst (outOfLane : Bool) : Block :=
  { segBlock 1 4 with tracker := { (segBlock 1 4).tracker with
      burst := some ⟨0x41, 0x0200000100, 0, false, outOfLane, []⟩ } }

theorem test_witness_empty_burst :
    (∀ o ∈ [false, true],
      (emptyBurst o).tracker.burst = some ⟨0x41, 0x0200000100, 0, false, o, []⟩
      ∧ (emptyBurst o).store.activeProgram ≠ none ∧ (emptyBurst o).decoder.resetPending = false)
    ∧ bare.tracker.burst = none := by decide

/-- R28: the burst wholly out of its lane is reported and ended. -/
theorem test_empty_burst :
    (after .segment (emptyBurst true)).logs.capture.held = some ⟨.cLaneRange, .minor, 0x41, 0x0200000100, 0⟩
    ∧ (after .segment (emptyBurst true)).tracker.burst = none
    ∧ after .segment (emptyBurst false)
      = { emptyBurst false with tracker := { (emptyBurst false).tracker with burst := none } } := by decide

theorem test_witness_admission :
    let fresh : Accumulator := program.header.newRecord 0 joint0
    program.joints.drop 0 = joint0 :: [joint1] ∧ program.joints.drop 2 = []
    ∧ (∀ y ∈ [(1 : Nat), 2], y < joint0.region.y0 ∨ joint0.region.y0 ≤ y)
    ∧ (List.replicate 511 fresh).length < 512 ∧ 512 ≤ (List.replicate 512 fresh).length := by
  refine ⟨by decide, by decide, by decide, ?_, ?_⟩
  · rw [List.length_replicate]; decide
  · rw [List.length_replicate]

/-- A record of joint 1 with gap row `y` in hand, in lane 1. -/
def gapRecord (y : Nat) : Accumulator :=
  { program.header.newRecord 1 joint1 with gapPart := some ⟨some y, 4, 0⟩ }

/-- R70, R73: with lane 1 at watermark 4 the gap row 4 is closed, and row 5 is not; the record of completion row 5 stays
until lane 1 has closed row 5. -/
theorem test_witness_notice :
    let at_ := fun (w : Int) (y : Nat) => { segBlock 1 4 with
      tracker := { (segBlock 1 4).tracker with progress := [⟨1, 4, 0⟩, ⟨6, 32, w⟩] }
      joints := ⟨[gapRecord y], 2⟩ }
    (at_ 4 4).tracker.progress[1]? = some ⟨6, 32, 4⟩
    ∧ ((at_ 4 4).notice program 1).joints.records = [{ gapRecord 4 with gapPart := some ⟨none, 0, 1⟩ }]
    ∧ ((at_ 4 5).notice program 1).joints.records = [gapRecord 5]
    ∧ ((at_ 5 5).notice program 1).joints.records = []
    ∧ ((at_ 5 5).notice program 1).tally.counts.unreadable = 1 := by decide

/-- The gap rows of the clauses on what a segment adds: none, the segment's own, an earlier one. -/
theorem test_witness_gap_part :
    (seg 4 48 51).overlap ⟨48, 51, 3, 5⟩ = [] ∧ joint1.gap = some ⟨48, 51, 3, 5⟩ ∧ joint0.gap = none
    ∧ ({ seg 4 48 51 with pixels := [⟨48, 0, 15⟩] } : Segment).overlap ⟨48, 51, 3, 5⟩ ≠ []
    ∧ (gapRecord 4).gapPart = some ⟨some (seg 4 48 51).row, 4, 0⟩ ∧ (gapRecord 3).gapPart = some ⟨some 3, 4, 0⟩
    ∧ (3 : Nat) < (seg 4 48 51).row ∧ (program.header.newRecord 1 joint1).gapPart = some ⟨none, 0, 0⟩
    ∧ (51 - 48 + 1 : Nat) = 4 := by decide

/-- The record of 5.10.1 with other counts. -/
def record (flat slope steep dark : Nat) (bridged : Nat) : Accumulator :=
  { darker with counts := ⟨flat, slope, steep, 0, dark, 0, 0, 452400⟩, gapPart := some ⟨none, 0, bridged⟩ }

theorem test_witness_verdict :
    ((record 0 0 0 0 0).counts.valid = 0) ∧ (record 0 0 0 0 0).damaged = false
    ∧ ({ darker with damaged := true } : Accumulator).damaged = true
    ∧ (256 * (record 249 0 0 0 0).counts.valid / 320 < recipe.minValid)
    ∧ (recipe.minValid ≤ 256 * (record 250 0 0 0 0).counts.valid / 320)
    ∧ (recipe.satMax < 256 * 21 / 312) ∧ (256 * 20 / 312 ≤ recipe.satMax)
    ∧ ((record 60 150 40 62 2).gapPart.map (·.bridged) = some recipe.bridgeRows)
    ∧ (recipe.darkMax < 256 * 60 / 312) ∧ (452400 / 312 ≥ recipe.brightMin) ∧ (256 * 59 / 312 ≤ recipe.darkMax)
    ∧ (256 * 116 / 312 < recipe.slopeMin) ∧ (recipe.slopeMin ≤ 256 * 117 / 312)
    ∧ (recipe.steepMax < 256 * 50 / 312) ∧ (256 * 49 / 312 ≤ recipe.steepMax) := by decide

/-- A frame that closes, bound to the board at the head, with `n` records queued. -/
def closeBlock (kind : CloseKind) (n : Nat) : Block :=
  { bare with
    store := running
    tracker := { FrameTracker.fresh with state := .closing, number := 4, closeKind := some kind, binding := some 5 }
    joints := ⟨[], 2⟩
    line := { Line.fresh with queue := [⟨5, 1000, 21000, .imaging 4⟩] }
    writer := { RecordWriter.fresh with
      queue := List.replicate n (.notice ⟨⟨.lLate, .minor, 0, 0, 0⟩, false, false⟩) } }

theorem test_witness_closing :
    (∀ kind ∈ [CloseKind.normal, .timeout, .truncated],
      (closeBlock kind 31).tracker.state = .closing ∧ (closeBlock kind 31).tracker.burst = none
      ∧ (closeBlock kind 31).tracker.closeKind = some kind ∧ (closeBlock kind 31).store.activeProgram = some program
      ∧ (closeBlock kind 31).joints.records = [] ∧ (closeBlock kind 31).joints.pointer = program.joints.length
      ∧ (closeBlock kind 31).tracker.binding = some 5
      ∧ (closeBlock kind 31).line.queue = [] ++ ⟨5, 1000, 21000, .imaging 4⟩ :: []
      ∧ (closeBlock kind 31).writer.queue.length < 32 ∧ (closeBlock kind 31).decoder.resetPending = false)
    -- a board that has left the queue, with its note; the note of an UNMATCHED frame is none
    ∧ (let l : Line := { Line.fresh with queue := [⟨6, 1001, 21001, .awaitingImage⟩], lateNote := some ⟨5, .cut⟩ }
      (∀ x ∈ l.queue, ∀ f, x.state = .imaging f → x.serial ≠ 5) ∧ l.lateNote = some ⟨5, .cut⟩)
    ∧ (darker.complete [⟨65, 0, 64⟩] = false) ∧ running.activeProgram = some program
    ∧ program.joints[(gapRecord 4).index]? = some joint1 := by
  refine ⟨by decide, ⟨?_, rfl⟩, by decide, by decide, by decide⟩
  intro x hx f h
  obtain rfl : x = ⟨6, 1001, 21001, .awaitingImage⟩ := by simpa using hx
  cases h

/-- A frame that closes with a record open and a joint not admitted; with 32 records queued; with its board gone and
no note. -/
theorem test_witness_closing_left_over :
    let b : Block := { closeBlock .normal 0 with joints := ⟨[program.header.newRecord 0 joint0], 1⟩ }
    (b.tracker.state = .closing ∧ b.tracker.burst = none ∧ b.store.activeProgram = some program
      ∧ b.joints.records ≠ [] ∧ b.joints.pointer < program.joints.length
      ∧ ∀ a ∈ b.joints.records, a.complete b.tracker.progress = false)
    ∧ (closeBlock .normal 32).writer.queue.length = 32 ∧ (closeBlock .normal 31).writer.queue.length < 32
    ∧ program.joints.length ≤ (⟨[], 3⟩ : JointSet).pointer
    ∧ (⟨[], 2⟩ : JointSet).pointer = program.joints.length
    ∧ ({ Line.fresh with queue := [] } : Line).lateNote = none := by decide

/-- R41, R90: at CLOSING the open record and the joint not admitted are UNREADABLE, the second with NOT_REACHED. -/
theorem test_closing_left_over :
    let b : Block := { closeBlock .timeout 0 with
      joints := ⟨[program.header.newRecord 0 joint0], 1⟩
      line := { (closeBlock .timeout 0).line with config := { LineConfig.fresh with report := .all } } }
    (after .closing b).tally.counts.unreadable = 2
    ∧ ((after .closing b).writer.queue.map fun r => match r with
        | .joint j => j.cause
        | _ => none).drop 1 = [some .notReached, none] := by decide

/-- R107, R108: the record of an UNMATCHED frame and that of a frame whose board has left the queue. -/
theorem test_unmatched_and_late :
    let b := closeBlock .normal 0
    let record := fun (x : Block) => match (after .closing x).writer.queue with
      | [.board r] => some (r.serial, r.late, r.unmatched, r.action)
      | _ => none
    record { b with tracker := { b.tracker with binding := none } } = some (0, false, true, .none)
    ∧ record { b with line := { b.line with queue := [], lateNote := some ⟨5, .cut⟩ } } = some (5, true, false, .cut)
    := by decide

theorem test_witness_results :
    (ReportMode.defects = .all ∨ (ReportMode.defects = .defects ∧ Verdict.excess ≠ .ok))
    ∧ ¬ (ReportMode.defects = .all ∨ (ReportMode.defects = .defects ∧ Verdict.ok ≠ .ok))
    ∧ (closeBlock .normal 23).writer.queue.length < 24 ∧ 24 ≤ (closeBlock .normal 24).writer.queue.length := by decide

/-! ### Witnesses: line -/

def sampled (x y : Bool) : Block := { bare with line := { Line.fresh with lastSample := some (x, y) } }

theorem test_witness_encoder :
    (bare.line.lastSample = none) ∧ (sampled true false).line.lastSample = some (true, false)
    ∧ xor (decide (true ≠ true)) (decide (false ≠ true)) = true
    ∧ (let t : Block := { sampled true false with
        tracker := { FrameTracker.fresh with state := .opened, opening := 1000 }
        line := { line1 with position := 1500, config := { line1.config with timeout := 500 } } }
      t.tracker.state = .opened ∧ t.line.config.valid = true ∧ t.line.config.timeout ≠ 0
      ∧ (t.line.config.timeout : Int) ≤ (t.line.position - t.tracker.opening).toInt
      ∧ ¬ (501 : Int) ≤ (t.line.position - t.tracker.opening).toInt)
    ∧ (sampled true false).tracker.state ≠ .opened := by decide

/-- R99: the step to the end of the window lets the line go, takes the board that is due there and closes the frame
that times out there. -/
theorem test_step_order :
    let b : Block := { bare with
      tracker := { FrameTracker.fresh with state := .opened, opening := 21299, binding := some 12 }
      line := { line1 with
        position := 21399, lastSample := some (false, false), config := { line1.config with timeout := 101 }
        queue := [⟨12, 1400, 21400, .imaging 88⟩] } }
    let t := after (.encoderStep true false) b
    t.line.driver = .dead .pass 3000 (some (.action .reject 21800 12)) ∧ t.line.queue = []
    ∧ t.line.lateNote = some ⟨12, .driven⟩ ∧ t.tracker.closeKind = some .timeout
    ∧ t.logs.line.held = some ⟨.lFrameTimeout, .degraded, 0, 0, 12⟩ := by decide

/-- A JUDGED board at its due position, and one due a count later. -/
def dueBlock (window : Nat) : Block :=
  { bare with line := { line1 with
      position := 21300, driver := .idle
      config := { line1.config with window := window }
      queue := [⟨11, 1300, 21300, .judged 87 .reject⟩, ⟨12, 1301, 21301, .imaging 88⟩] } }

theorem test_witness_due_board :
    reached (dueBlock 1).line.position 21300 = true ∧ reached (dueBlock 1).line.position 21301 = false
    ∧ (dueBlock 1).line.gateMode = .active ∧ (dueBlock 1).line.driver = .idle
    ∧ reached (dueBlock 1).line.position (21300 + BitVec.ofNat 32 (dueBlock 1).line.config.window) = false
    ∧ bare.line.queue = []
    ∧ (∀ state ∈ [BoardState.awaitingImage, .imaging 4, .judged 4 .pass],
      let l : Line := { line1 with queue := [⟨11, 1300, 21300, state⟩] }
      l.queue = ⟨11, 1300, 21300, state⟩ :: [] ∧ 0 ≤ (l.position - 21300).toInt ∧ (l.position - 21301).toInt < 0)
    := by decide

/-- R110: a due board that was never imaged gives its record and drives the reject line. -/
theorem test_not_imaged :
    let b := Block.dueBoards 1 { bare with line := { line1 with
      driver := .idle, queue := [⟨11, 1300, 21300, .awaitingImage⟩] } }
    b.line.driver = .driving .reject (some 21700) (some 11) ∧ b.line.queue = []
    ∧ (match b.writer.queue with
      | [.board r] => decide (r.serial = 11 ∧ r.notImaged = true ∧ r.action = .driven)
      | _ => false) = true := by decide

theorem test_witness_board_edge :
    ((line2 7).settled ≠ decide ((line2 7).config.polarity = .rising) ∧ (line2 7).config.valid = true
      ∧ (line2 7).queue.length < 8 ∧ (line2 7).runCount = 3 ∧ true ≠ (line2 7).settled)
    ∧ ({ line2 7 with settled := true } : Line).settled = decide ((line2 7).config.polarity = .rising)
    ∧ ({ line2 7 with runCount := 2 } : Line).runCount < 3
    ∧ 8 ≤ (line2 8).queue.length ∧ (line2 8).config.valid = true ∧ bare.logs.line.held = none
    ∧ (line2 8).settled ≠ decide ((line2 8).config.polarity = .rising)
    ∧ Line.fresh.config.valid = false ∧ Line.fresh.settled ≠ decide (Line.fresh.config.polarity = .rising)
    ∧ false ≠ decide ((line2 7).config.polarity = .rising) := by decide

/-- R102, R103: under an invalid configuration an edge settles the level alone; the untracked count stays at 65535, and
an error held in the line log stays. -/
theorem test_edges_that_enter_no_board :
    after .boardEdgeLeading bare = { bare with line := { bare.line with settled := true } }
    ∧ (let b : Block := { bare with
        line := { line2 8 with untracked := 65535 }, logs := { bare.logs with
          line := ⟨some ⟨.lQueueFull, .fatal, 0, 0, 1⟩, false⟩ } }
      let t := after .boardEdgeLeading b
      t.line.untracked = 65535 ∧ t.line.settled = true ∧ t.logs.line = ⟨some ⟨.lQueueFull, .fatal, 0, 0, 1⟩, true⟩
      ∧ t.line.serial = 37 ∧ t.line.queue.length = 8 ∧ t.master.queue.map (·.work) = [.statusBlock]) := by decide

theorem test_witness_gate_driver :
    line1.lateNote = none ∧ line1.config.deadTime ≠ 0 ∧ reached line1.position 21301 = false
    ∧ ({ line1 with driver := .idle } : Line).driver = .idle
    ∧ line1.driver = .driving .pass (some 21400) (some 10)
    ∧ ({ line1 with driver := .dead .pass 1 none } : Line).driver = .dead .pass 1 none
    ∧ ({ line1 with driver := .dead .pass 0 (some (.action .reject 21301 9)) } : Line).driver
      = .dead .pass 0 (some (.action .reject 21301 9)) := by decide

/-- The gate driver with a late note that the action cuts, an end the position has reached, and a dead time of 0. -/
theorem test_witness_gate_driver_edges :
    ({ line1 with lateNote := some ⟨10, .driven⟩ } : Line).lateNote = some ⟨10, .driven⟩
    ∧ line1.driver = .driving .pass (some 21400) (some 10)
    ∧ 0 ≤ (line1.position - 21300).toInt ∧ ¬ 0 ≤ (line1.position - 21301).toInt
    ∧ ({ line1.config with deadTime := 0 } : LineConfig).deadTime = 0 ∧ (GateLine.reject ≠ .pass) := by decide

/-- R114, R115: an action of the other kind cuts the one in force, and the late note of its board says CUT; with a dead
time of 0 an end already reached gives no time at all. -/
theorem test_cut_note_and_pulse :
    let l : Line := { line1 with lateNote := some ⟨10, .driven⟩ }
    (l.takeAction .reject 21700 11).lateNote = some ⟨10, .cut⟩
    ∧ (l.takeAction .pass 21700 11).lateNote = some ⟨10, .driven⟩
    ∧ ({ l with driver := .idle } : Line).takeAction .reject 21300 11 = { l with driver := .dead .reject 3000 none }
    ∧ (({ l with config := { l.config with deadTime := 0 } } : Line).takeAction .reject 21300 11).driver = .idle
    := by decide

/-! ### Witnesses: memory port -/

/-- A head write at the system port, in the mailbox window or below it, with `n` writes outstanding. -/
def grantBlock (i : PortId) (addr : Addr) (bad : Bool) (n : Nat) : Block :=
  ({ bare with memory :=
      { table := (List.range n).map fun k => ⟨k, .upstream i k, 5, BitVec.ofNat 40 (4096 * k), 0, .write, 7⟩
        responseLimit := 2000
        lastGrantee := match i with
          | .capture => .internal
          | .system => .capture
        sent := [] } } : Block).setPort i
    { Port.fresh .mark with buffer :=
        [{ whole with addr := addr, state := .ready, taken := [⟨0, 0xFFFF, bad⟩] }] }

theorem test_witness_grant_write :
    (∀ i ∈ [PortId.capture, .system],
      let b := grantBlock i 0x7FF0000FF0 true 7
      b.memory.lastGrantee.next = portSource i ∧ (b.port i).reads = []
      ∧ b.memory.outstanding (portSource i) .write < 8 ∧ b.memory.conflicts (byteRange 0x7FF0000FF0 0) .write = false
      ∧ b.memory.pickTag 0 = some 7)
    ∧ (byteRange 0x7FEFFFFFF0 0).overlaps bare.decoder.window = false
    ∧ (byteRange 0x7FF0000000 0).overlaps bare.decoder.window = true
    ∧ (byteRange 0x7FF0000FF0 0).overlaps bare.decoder.window = true := by decide

/-- A head read behind a write that neither is READY nor overlaps it, with `n` reads outstanding. -/
def readBlock (n : Nat) : Block :=
  { bare with
    memory :=
      { table := (List.range n).map fun k => ⟨k, .upstream .system k, 5, BitVec.ofNat 40 (4096 * k), 0, .read, 7⟩
        responseLimit := 2000, lastGrantee := .capture, sent := [] }
    system := { Port.fresh .mark with
      buffer := [unfinished], reads := [⟨40, 5, 0x0200000010, 0, .allOnes⟩] } }

theorem test_witness_grant_read :
    let b := readBlock 15
    b.memory.lastGrantee.next = portSource .system ∧ (b.port .system).reads = [⟨40, 5, 0x0200000010, 0, .allOnes⟩]
    ∧ (∀ v ∈ (b.port .system).buffer,
        v.state ≠ .ready ∧ (byteRange v.addr v.beats).overlaps (byteRange 0x0200000010 0) = false)
    ∧ (∀ q ∈ b.master.queue, (b.workRange q.work).overlaps (byteRange 0x0200000010 0) = false)
    ∧ b.memory.outstanding (portSource .system) .read < 16
    ∧ b.memory.conflicts (byteRange 0x0200000010 0) .read = false ∧ b.memory.pickTag 40 = some 55 := by decide

/-- A head read of the system port and a READY head write of stamps `r` and `w`, with these addresses. -/
def bothBlock (r w : Nat) (readAddr : Addr) : Block :=
  { bare with
    memory := { bare.memory with lastGrantee := .capture }
    system := { Port.fresh .mark with
      buffer := [{ whole with stamp := w, state := .ready }], reads := [⟨r, 5, readAddr, 0, .allOnes⟩] } }

/-- Both heads free, in either order of the requests; the read held back by an older overlapping write, and by one
queued at the internal master. -/
theorem test_witness_head_order :
    (bothBlock 4 3 0x0200000010).system.reads = [⟨4, 5, 0x0200000010, 0, .allOnes⟩]
    ∧ (3 < 4) ∧ (byteRange 0x0200000000 0).overlaps (byteRange 0x0200000010 0) = false
    ∧ (byteRange 0x0200000000 0).overlaps (byteRange 0x020000000F 0) = true
    ∧ (bothBlock 3 4 0x0200000010).memory.outstanding .system .write < 8
    ∧ (bothBlock 3 4 0x0200000010).memory.conflicts (byteRange 0x0200000010 0) .read = false
    ∧ (let q : InternalRequest := ⟨2, .slotWrite 0x0200000000 0 0⟩
      q.stamp < 3 ∧ q.work.direction = .write
      ∧ (bare.workRange q.work).overlaps (byteRange 0x0200000010 0) = true) := by decide

/-- R153, R154: the older head goes first; a read behind an older write that it overlaps stays; a queued slot write
holds back the read of its bytes. -/
theorem test_head_order :
    (after (.arbiterGrant 0 false) (bothBlock 4 3 0x0200000010)).system.buffer = []
    ∧ (after (.arbiterGrant 0 false) (bothBlock 3 4 0x0200000010)).system.reads = []
    ∧ (after (.arbiterGrant 0 false) (bothBlock 4 3 0x0200000000)).system.reads.length = 1
    ∧ (let b : Block := { bothBlock 3 4 0x0200000010 with
        master := ⟨[⟨2, .slotWrite 0x0200000000 0 0⟩], []⟩
        system := { (bothBlock 3 4 0x0200000010).system with buffer := [] } }
      let t := after (.arbiterGrant 0 false) b
      t.system.reads.length = 1 ∧ t.memory.lastGrantee = .internal) := by decide

/-- An internal request at the head of the queue, with `n` internal requests outstanding. -/
def internalBlock (work : InternalWork) (n : Nat) : Block :=
  { bare with
    master := ⟨[⟨9, work⟩], []⟩
    memory :=
      { table := (List.range n).map fun k => ⟨k, .producerWord, 0xFF, BitVec.ofNat 40 (4096 * k), 0, .write, 7⟩
        responseLimit := 2000, lastGrantee := .system, sent := [] } }

theorem test_witness_grant_internal :
    ∀ work ∈ [InternalWork.fetch 0x0100000000 3, .slotWrite 0x0100000000 0 0, .producerWord 5, .statusBlock],
      let b := internalBlock work 7
      b.memory.lastGrantee = .system ∧ b.master.queue = [⟨9, work⟩]
      ∧ b.memory.outstanding .internal .read + b.memory.outstanding .internal .write < 8
      ∧ b.memory.conflicts (b.workRange work) work.direction = false ∧ b.memory.pickTag 0 = some 7
      ∧ b.presents .internal ≠ none ∧ Source.internal ≠ b.memory.lastGrantee := by decide

/-- The turn of each source: behind sources that present nothing, the last grantee itself among them (8.9.1, its first
row); not behind one that presents. -/
theorem test_witness_turns :
    (∀ last ∈ [Source.capture, .system, .internal],
      let m : Block := { internalBlock .statusBlock 0 with
        memory := { (internalBlock .statusBlock 0).memory with lastGrantee := last } }
      let r : Block := { readBlock 0 with memory := { (readBlock 0).memory with lastGrantee := last } }
      let g : Block := { grantBlock .capture 0x0200000000 false 0 with
        memory := { (grantBlock .capture 0x0200000000 false 0).memory with lastGrantee := last }, master := ⟨[], []⟩ }
      m.inTurn .internal ∧ r.inTurn .system ∧ g.inTurn .capture)
    ∧ ¬ ({ readBlock 0 with
        memory := { (readBlock 0).memory with lastGrantee := .system }
        master := ⟨[⟨9, .statusBlock⟩], []⟩ } : Block).inTurn .system := by
  simp only [Block.inTurn]; decide +kernel

/-- No source presents, and every tag is held. -/
theorem test_witness_no_grant :
    (∀ src ∈ [Source.capture, .system, .internal], bare.presents src = none)
    ∧ (∀ t ∈ (readBlock 15).memory.table, t.tag < 56)
    ∧ ({ bare.memory with table := (List.range 56).map fun k => ⟨k, .producerWord, 0xFF, 0, 0, .read, 7⟩ } :
        MemoryPort).pickTag 3 = none := by decide

theorem test_witness_copy :
    (63 < 64) ∧ bare.decoder.slot[63]? = some 0 ∧ (3 < 4) ∧ bare.decoder.consumerWord[3]? = some 0 := by decide

/-- Copies that enable a byte of the consumer word, of the kind word, of both, and of neither; a kind word of 0. -/
theorem test_witness_copies :
    let slot : Vector (Option Byte) 64 := slotBytes 0 [7, 0, 0, 0]
    let word : Vector (Option Byte) 4 := #v[some 10, none, none, none]
    (∃ k : Fin 4, (word[k]).isSome = true) ∧ (¬ ∃ k : Fin 4, ((noBytes : Vector (Option Byte) 4)[k]).isSome = true)
    ∧ (∃ k : Fin 64, k.val < 4 ∧ (slot[k]).isSome = true)
    ∧ (¬ ∃ k : Fin 64, k.val < 4 ∧ ((slotBytes 4 [1])[k]).isSome = true)
    ∧ fieldAt (bare.decoder.slot).toList 0 4 = 0
    ∧ fieldAt ((bare.mergeCopy ⟨5, 0x7FF0000000, slot, word⟩).decoder.slot).toList 0 4 = 7 := by
  refine ⟨⟨0, by decide⟩, by decide, ⟨0, by decide⟩, by decide +kernel, by decide, by decide⟩

/-- R184, R188: one write carries the consumer word and a SET_RING: the ring is empty when the command meets it, so it is
configured anew. The kind word alone then takes it again over the same arguments. -/
theorem test_copy_in_order :
    let b : Block := { bare with writer := ringWriter 10 3 }
    let slot : Vector (Option Byte) 64 := slotBytes 0 [3, 0, 0, 0, 0, 0, 0, 0, 0, 0, 0, 0, 2, 0, 0, 0, 32, 0, 0, 0, 0]
    let t := b.decodeCopy ⟨5, 0x7FF0000000, slot, #v[some 10, some 0, some 0, some 0]⟩ false
    let u := t.decodeCopy (slotCopy (slotBytes 0 [3, 0, 0, 0])) false
    (b.decodeCopy (slotCopy slot) false).decoder.lastOutcome = .wrongState
    ∧ t.decoder.lastOutcome = .done ∧ t.writer.ring = some ⟨0x0200000000, 32, false⟩ ∧ t.decoder.commandCount = 1
    ∧ u.decoder.lastOutcome = .done ∧ u.decoder.commandCount = 2 := by decide +kernel

/-- The internal master alone presents, behind the two ports in each cyclic order. -/
theorem test_witness_first_presenting :
    ∀ last ∈ [Source.capture, .system, .internal],
      let b : Block := { internalBlock (.producerWord 5) 0 with
        memory := { (internalBlock (.producerWord 5) 0).memory with lastGrantee := last } }
      b.presents .internal ≠ none ∧ b.memory.pickTag 0 = some 0
      ∧ b.presents .capture = none ∧ b.presents .system = none := by decide

/-- One outstanding request of an owner. -/
def outstandingBlock (owner : EntryOwner) (dir : Direction) (timer : Nat) : Block :=
  { bare with
    memory := { bare.memory with table := [⟨55, owner, 5, 0x0120000040, 3, dir, timer⟩] }
    system := { Port.fresh .mark with unanswered := [⟨3, 5, .read, true, none⟩] }
    logs := { bare.logs with memory := ⟨some ⟨.mTimeout, .degraded, 5, 0, 0⟩, true⟩ }
    store := ⟨.loading ⟨0x0100000000, none, [], [], [], 64, some ⟨3, 0⟩⟩, .empty, ⟨some .bank0, none, 0⟩⟩
    writer := { ringWriter 17 2 with slotWrite := some 3, queue := [.notice ⟨⟨.lLate, .minor, 0, 0, 0⟩, false, false⟩] } }

theorem test_witness_responses :
    (∀ owner ∈ [EntryOwner.upstream .system 3, .loader 3, .loader 4, .slotWrite 3, .slotWrite 4, .producerWord,
        .statusWriter],
      let e : TableEntry := ⟨55, owner, 5, 0x0120000040, 3, .read, 2000⟩
      (outstandingBlock owner .read 2000).memory.table = [] ++ e :: []
      ∧ ((outstandingBlock owner .read 2000).memory.table.map (·.tag)).Nodup
      ∧ (List.replicate 4 (0 : Beat)).length = beatCount e.beats)
    ∧ (∀ e ∈ (outstandingBlock .producerWord .read 2000).memory.table, e.tag ≠ 54) := by decide

/-- A load that lacks the last 8 bytes of its one joint. -/
def lastRead : Load :=
  { address := 0x0100000000, header := some { program.header with jointCount := 1 }, recipes := [recipe], joints := []
    received := [0, 0, 28, 0, 35, 0, 2, 0, 4, 0, 0, 1, 0, 0, 0, 0], nextOffset := 112, outstanding := some ⟨3, 96⟩ }

theorem test_witness_owners_end :
    let b := outstandingBlock (.slotWrite 3) .write 0
    b.writer.slotWrite = some 3 ∧ b.writer.slotWrite ≠ some 4 ∧ b.writer.ring = some ⟨0x0100000000, 16, true⟩
    ∧ b.writer.heldUpdate = none ∧ (∀ q ∈ b.master.queue, q.work.isProducerWord = false)
    ∧ b.master.queue.length < 8 ∧ b.master.waiters = []
    ∧ b.logs.memory = ⟨some ⟨.mTimeout, .degraded, 5, 0, 0⟩, true⟩
    ∧ b.store.bank .bank0 = .loading ⟨0x0100000000, none, [], [], [], 64, some ⟨3, 0⟩⟩
    ∧ (b.store.bank BankId.bank0.other).load? = none
    ∧ (∀ i ∈ [BankId.bank0, .bank1],
        let store := (⟨.empty, .empty, ⟨some i, none, 0⟩⟩ : ProgramStore).setBank i (.loading lastRead)
        store.bank i = .loading lastRead ∧ (store.bank i.other).load? = none)
    ∧ Waiter.fetch ∉ b.master.waiters := by decide

/-- A slot write in progress with a consumer update held, behind a producer word write queued, one that waits, a full
queue, and none; an ended load's read beside a load in progress. -/
def slotEndBlock (master : InternalMaster) (held : BitVec 32) : Block :=
  { outstandingBlock (.slotWrite 3) .write 2000 with
    writer := { (outstandingBlock (.slotWrite 3) .write 2000).writer with heldUpdate := some ⟨held, 5, 0x7FF0000040⟩ }
    master := master }

theorem test_witness_slot_end :
    (∀ m ∈ [(⟨[⟨1, .statusBlock⟩, ⟨2, .producerWord 17⟩], []⟩ : InternalMaster),
        ⟨List.replicate 8 ⟨0, .statusBlock⟩, [.statusBlock, .producerWord 17]⟩,
        ⟨List.replicate 8 ⟨0, .statusBlock⟩, []⟩, ⟨[], []⟩],
      let b := slotEndBlock m 18
      b.memory.table = [] ++ ⟨55, .slotWrite 3, 5, 0x0120000040, 3, .write, 2000⟩ :: []
      ∧ b.writer.slotWrite = some 3 ∧ b.writer.ring = some ⟨0x0100000000, 16, true⟩ ∧ b.writer.heldUpdate ≠ none
      ∧ b.writer.slotWrite ≠ some 4)
    ∧ (slotEndBlock ⟨[⟨2, .producerWord 17⟩], []⟩ 18).master.queue.any (·.work.isProducerWord) = true
    ∧ ((outstandingBlock (.loader 4) .read 9).store.bank .bank0
      = .loading ⟨0x0100000000, none, [], [], [], 64, some ⟨3, 0⟩⟩ ∧ (3 : Nat) ≠ 4) := by decide

/-- R175, R178: the new producer index takes the place of the queued word, and the held update is applied against it: 18
is taken, 19 clamped and reported. An expiry drops the record and applies it against the old one. -/
theorem test_slot_end :
    let b := slotEndBlock ⟨[⟨2, .producerWord 17⟩], []⟩
    let ends := fun (c : Instr) (held : BitVec 32) =>
      let t := after c (b held)
      (t.writer.producer, t.writer.consumer, t.writer.ringIrq, t.writer.drops, t.logs.system.level)
    ends (.memoryResponse 55 .okay []) 18 = (18, 18, false, 0, 0)
    ∧ ends (.memoryResponse 55 .okay []) 19 = (18, 18, false, 0, 1)
    ∧ ends (.responseTimerExpiry 55) 17 = (17, 17, false, 1, 0)
    ∧ (after (.memoryResponse 55 .okay []) (b 18)).master.queue.head? = some ⟨2, .producerWord 18⟩ := by decide

/-- R12, R140: the expiry of a fetch read ends its load with FETCH_ERROR; that of an ended load's read does not. -/
theorem test_fetch_expiry :
    (after (.responseTimerExpiry 55) (outstandingBlock (.loader 3) .read 9)).store
      = ⟨.empty, .empty, ⟨some .bank0, some .fetchError, 0⟩⟩
    ∧ (after (.responseTimerExpiry 55) (outstandingBlock (.loader 4) .read 9)).store
      = (outstandingBlock (.loader 4) .read 9).store := by decide

theorem test_witness_last_joint :
    ({ lastRead with received := lastRead.received ++ [(0 : Beat)].flatMap beatBytes, outstanding := none } : Load).validate
      = .passed ⟨{ program.header with jointCount := 1 }, [recipe], [joint0]⟩
    ∧ (∃ more, ({ lastRead with
        header := some program.header, received := lastRead.received ++ [(0 : Beat)].flatMap beatBytes
        outstanding := none } : Load).validate = .more more)
    ∧ ({ lastRead with
        received := lastRead.received.set 11 3 ++ [(0 : Beat)].flatMap beatBytes, outstanding := none } : Load).validate
      = .failed .jointRange 0
    ∧ ([(0 : Beat)] : List Beat).length = beatCount 0 ∧ lastRead.outstanding = some ⟨3, 96⟩
    ∧ program.header.window.overlaps bare.decoder.window = false
    ∧ program.header.window.overlaps (⟨0x0200000000, 16, true⟩ : Ring).range = true := by
  refine ⟨by decide, ⟨_, rfl⟩, by decide, by decide, by decide, by decide, by decide⟩

/-- A failed check in bank 1 ends that load (R13). -/
theorem test_fetch_fails_in_bank1 :
    let b : Block := { bare with
      memory := { bare.memory with table := [⟨55, .loader 3, 0xFF, 0x0100000060, 0, .read, 9⟩] }
      store := ⟨.active program, .loading { lastRead with received := lastRead.received.set 11 3 },
        ⟨some .bank1, none, 0⟩⟩ }
    let t := (after (.memoryResponse 55 .okay [0]) b).store
    t.bank1 = .empty ∧ t.bank0 = .active program ∧ t.record = ⟨some .bank1, some .jointRange, 0⟩ := by decide

/-- A header image: its first bytes, a lane, and zeros. -/
def headerImage (format height lastColumn : Byte) : Load :=
  { address := 0, header := none, recipes := [], joints := [], nextOffset := 64, outstanding := none
    received := [format, 0, 0, 0, 1, 1, 0, 0, 0, 0, 0, 0, 2, 0, 0, 0, 64, 0, height, 0, 0, 1, 0, 0, 1, 1, 1, 0, 0, 0, 0, 0,
      0x41, 0, 0, 0, lastColumn, 0, 0, 0] ++ List.replicate 24 0 }

theorem test_witness_header_checks :
    ((headerImage 7 8 63).header = none ∧ 64 ≤ (headerImage 7 8 63).received.length)
    ∧ (headerImage 6 8 63).validate = .failed .format 0 ∧ (headerImage 7 0 63).validate = .failed .geometry 0
    ∧ (headerImage 7 8 64).validate = .failed .lanes 0
    ∧ (headerImage 7 8 63).validate = .more { headerImage 7 8 63 with
        header := some ⟨0x101, 0x0200000000, 64, 8, 256, [⟨0x41, 0, 63⟩], 1, 1⟩, received := [] } := by decide

/-- R2, R200: the lane of the header held has the master ID and the columns of its entry. -/
theorem test_header_lane :
    (match (headerImage 7 8 63).validate with
      | .more l => decide (l.header.map (·.lanes) = some [⟨0x41, 0, 63⟩])
      | _ => false) = true
    ∧ fieldAt (headerImage 7 8 63).received 32 1 = 0x41 ∧ fieldAt (headerImage 7 8 63).received 36 2 = 63 := by decide

/-- A load that holds its header, at the recipe with these two leading bytes, `n` bytes received. -/
def recipeImage (low high : Byte) (n : Nat) : Load :=
  { lastRead with recipes := [], received := ([low, high] ++ List.replicate 14 0).take n, outstanding := none }

/-- dark_sum 3069 passes, 3070 does not, and 15 bytes are no recipe. -/
theorem test_witness_recipe_checks :
    (recipeImage 0xFD 0x0B 15).validate = .more (recipeImage 0xFD 0x0B 15)
    ∧ (recipeImage 0xFE 0x0B 16).validate = .failed .recipe 0
    ∧ (match (recipeImage 0xFD 0x0B 16).validate with
      | .more l => decide (l.recipes.map (·.darkSum) = [3069])
      | _ => false) = true := by decide

/-- A load at its joint 1, behind joint 0: region rows from `y0`, region columns to `x1`, weight code, gap flag, gap
row from `g`; `n` bytes received. -/
def jointImage (y0 x1 weight flag g : Byte) (n : Nat) : Load :=
  { lastRead with
    header := some program.header, joints := [joint0], outstanding := none
    received := ([1, 0, 40, 0, x1, 0, y0, 0, 5, 0, 0, weight, flag, 0, 48, 0, 51, 0, g, 0, 5, 0, 0, 0] : List Byte).take n }

/-- The checks of a joint in their order: the order of rows, then the range, then the gap; then the load is whole. -/
theorem test_witness_joint_checks :
    (jointImage 3 47 1 1 3 23).validate = .more (jointImage 3 47 1 1 3 23)
    ∧ (jointImage 1 64 1 1 0 24).validate = .failed .jointOrder 1
    ∧ (jointImage 3 64 1 1 0 24).validate = .failed .jointRange 1
    ∧ (jointImage 3 47 3 1 0 24).validate = .failed .jointRange 1
    ∧ (jointImage 3 47 1 1 2 24).validate = .failed .gap 1
    ∧ (jointImage 3 47 1 0 2 24).validate
      = .passed ⟨program.header, [recipe], [joint0, { joint1 with label := 1, gap := none }]⟩
    ∧ (jointImage 3 47 1 1 3 24).validate = .passed ⟨program.header, [recipe], [joint0, { joint1 with label := 1 }]⟩
    := by decide

/-! ### Witnesses: owners and mailbox -/

/-- A load about to fetch and a record about to be written, with `n` internal requests queued. -/
def ownersBlock (n : Nat) : Block :=
  { bare with
    master := ⟨List.replicate n ⟨0, .statusBlock⟩, []⟩
    store := ⟨.loading ⟨0x0100000000, none, [], [], [], 0, none⟩, .empty, ⟨some .bank0, none, 0⟩⟩
    writer := { ringWriter 17 2 with queue := [.notice ⟨⟨.lLate, .minor, 0, 0, 0⟩, false, false⟩] } }

theorem test_witness_hand_over :
    (∀ n ∈ [7, 8], (ownersBlock n).master.waiters = [] ∧ (ownersBlock n).master.queue.length = n
      ∧ (ownersBlock n).store.bank .bank0 = .loading ⟨0x0100000000, none, [], [], [], 0, none⟩
      ∧ ((ownersBlock n).store.bank BankId.bank0.other).load? = none
      ∧ (0x0100000000 : Addr).toNat + 0 < 2 ^ 40
      ∧ (ownersBlock n).writer.ring = some ⟨0x0100000000, 16, true⟩ ∧ (ownersBlock n).writer.slotWrite = none
      ∧ ((ownersBlock n).writer.producer - (ownersBlock n).writer.consumer).toNat < 16)
    ∧ (let store : ProgramStore := ⟨.active program, .loading lastRead, ⟨some .bank1, none, 0⟩⟩
      store.bank .bank1 = .loading lastRead ∧ (store.bank BankId.bank1.other).load? = none
      ∧ 1 ≤ min 16 ((64 + 16 * 1 + 24 * 1 - 96 + 15) / 16))
    ∧ ({ (ownersBlock 7).master with waiters := [.statusBlock, .fetch] } : InternalMaster).waiters
      = .statusBlock :: [.fetch]
    ∧ (∃ q ∈ (ownersBlock 7).master.queue, q.work = .statusBlock)
    ∧ (∀ q ∈ bare.master.queue, q.work ≠ .statusBlock) ∧ Waiter.statusBlock ∉ bare.master.waiters := by decide

/-- A loader and a record writer that wait, with one place free and with two; a waiting loader whose load has ended,
and a waiting record writer with a slot write in progress. -/
def waitingBlock (n : Nat) : Block :=
  { ownersBlock n with master := { (ownersBlock n).master with waiters := [.fetch, .slotWrite] } }

theorem test_witness_waiting_owners :
    (∀ n ∈ [6, 7], (waitingBlock n).master.waiters = .fetch :: [.slotWrite] ∧ (waitingBlock n).master.queue.length < 8
      ∧ (∀ v, Waiter.producerWord v ∉ [Waiter.slotWrite]))
    ∧ (∀ i, bare.store.bank i ≠ .loading lastRead)
    ∧ ({ ringWriter 17 2 with slotWrite := some 1 } : RecordWriter).slotWrite ≠ none := by
  refine ⟨?_, fun i => by cases i <;> decide, by decide⟩
  intro n h
  simp only [List.mem_cons, List.not_mem_nil, or_false] at h
  rcases h with rfl | rfl <;> exact ⟨by decide, by decide, by simp⟩

/-- R157: with two places free both go in the order of their waits; with one, the record writer waits on; a loader
whose load has ended takes no place. -/
theorem test_hand_over_order :
    let works := fun (b : Block) => ((after .internalHandover b).master.queue.drop 6).map (·.work.direction)
    works (waitingBlock 6) = [.read, .write] ∧ works (waitingBlock 7) = [.write, .read]
    ∧ (after .internalHandover (waitingBlock 7)).master.waiters = [.slotWrite]
    ∧ works { waitingBlock 6 with store := bare.store } = [.write] := by decide

theorem test_witness_consumer_update :
    (ringWriter 17 16).slotWrite = none ∧ (ringWriter 17 1).ring = some ⟨0x0100000000, 16, true⟩
    ∧ ((ringWriter 17 16).producer - 1).toNat ≤ 16 ∧ 16 < ((ringWriter 17 16).producer - 0).toNat
    ∧ ({ ringWriter 17 16 with slotWrite := some 1 } : RecordWriter).slotWrite ≠ none
    ∧ bare.writer.ring = none := by decide

theorem test_witness_load_commands :
    bare.store.bank0.load? = none ∧ bare.store.bank1.load? = none
    ∧ (0xFFFFFFFFF0 : BitVec 64).toNat % 16 = 0 ∧ (0xFFFFFFFFF0 : BitVec 64).toNat < 2 ^ 40
    ∧ (ownersBlock 0).store.bank0.load?.isSome = true := by decide

theorem test_witness_set_ring :
    bare.RingInRange 0xFFFFE00000 65536 1 ∧ bare.RingInRange 0x0100000000 16 0
    ∧ (ringWriter 2 2).producer = (ringWriter 2 2).consumer := by
  refine ⟨⟨by decide, ⟨12, by decide, by decide⟩, by decide, by decide, by decide, ?_⟩,
    ⟨by decide, ⟨0, by decide, by decide⟩, by decide, by decide, by decide, ?_⟩, by decide⟩ <;>
  · intro p h
    have h0 : bare.store.readyProgram = none := by decide
    have h1 : bare.store.activeProgram = none := by decide
    simp [h0, h1] at h

def lineArgs (gateMode : Byte) : LineArgs := ⟨0x40000000, 0x100000, 65535, 0x40000000, 1, 1, 2, 7, gateMode⟩

theorem test_witness_set_line :
    (∀ g ∈ [(0 : Byte), 1, 2], lineInRange (lineArgs g)) ∧ lineInRange ⟨1, 1, 0, 0, 0, 0, 0, 0, 0⟩
    ∧ ¬ lineInRange ⟨0, 1, 0, 0, 0, 0, 0, 0, 0⟩ ∧ bare.line.queue = []
    ∧ ({ line1 with gateMode := .held } : Line).gateMode = .held ∧ (line1.gateMode = .active ∧ line1.queue = []) := by
  refine ⟨?_, ?_, ?_, rfl, rfl, rfl, rfl⟩ <;> (unfold lineInRange; decide)

/-- R118: SET_LINE from ACTIVE to OFF lets the driven line go for the new dead time; the late note of its board says
CUT. -/
theorem test_set_line_off :
    let b : Block := { bare with line := { line1 with lateNote := some ⟨10, .driven⟩ } }
    let t := (after (.setLine (lineArgs 1)) b).line
    t.driver = .dead .pass 65535 none ∧ t.gateMode = .off ∧ t.lateNote = some ⟨10, .cut⟩ := by decide

theorem test_witness_port_commands :
    ((2 : Byte), PortId.system) ∈ [((1 : Byte), PortId.capture), (2, .system)]
    ∧ ((4 : Byte), LogSource.line) ∈ [((1 : Byte), LogSource.capture), (2, .system), (3, .memory), (4, .line)]
    ∧ bare.logs.capture.held = none ∧ ({ line1 with gateMode := .held } : Line).gateMode = .held
    ∧ ((1 : Byte), FailResponse.error) ∈ [((0 : Byte), FailResponse.allOnes), (1, .error)]
    ∧ ((0 : Byte), Policy.mark) ∈ [((0 : Byte), Policy.mark), (1, .contain)] := by decide

/-- The clauses of the commands that are turned away, each code at the edge of its range. -/
theorem test_witness_commands_turned_away :
    ¬ (((0 : Byte) = 1 ∨ (0 : Byte) = 2) ∧ ((1 : Byte) = 0 ∨ (1 : Byte) = 1) ∧ ((1 : Byte) = 0 ∨ (1 : Byte) = 1))
    ∧ ¬ (((2 : Byte) = 1 ∨ (2 : Byte) = 2) ∧ ((2 : Byte) = 0 ∨ (2 : Byte) = 1) ∧ ((0 : Byte) = 0 ∨ (0 : Byte) = 1))
    ∧ (∀ code ∈ [(0 : Byte), 5], code ≠ 1 ∧ code ≠ 2 ∧ code ≠ 3 ∧ code ≠ 4)
    ∧ (∀ code ∈ [(0 : Byte), 3], code ≠ 1 ∧ code ≠ 2)
    ∧ (({ bare with logs := { bare.logs with system := ⟨some ⟨.sAddrParity, .fatal, 3, 0x40, 0⟩, false⟩ } } :
        Block).logs.system.held = some ⟨.sAddrParity, .fatal, 3, 0x40, 0⟩)
    ∧ bare.line.gateMode ≠ .held := by decide

theorem test_witness_inspection_reset :
    bare.decoder.resetPending = false ∧ bare.tracker.state = .idle ∧ (segBlock 1 4).tracker.state = .opened
    ∧ (closeBlock .normal 0).tracker.state = .closing ∧ bare.store.bank0.load? = none ∧ bare.store.bank1.load? = none
    ∧ (segBlock 1 4).tracker.burst.map (·.segments) = some [seg 1 4 7, seg 2 0 3] := by decide

/-- R192: BUSY while a reset is pending, STARTED with a segment in hand, DONE between segments. -/
theorem test_inspection_reset_outcomes :
    let b := segBlock 1 4
    (after (.inspectionReset true) { b with decoder := { b.decoder with resetPending := true } }).decoder.lastOutcome
      = .busy
    ∧ (after (.inspectionReset true) b).decoder.lastOutcome = .started
    ∧ (after (.inspectionReset false) b).decoder.lastOutcome = .done := by decide

/-- The reset pending at a SEGMENT and at CLOSING, with a load in either bank. -/
def resetBlock (b : Block) : Block := { b with decoder := { b.decoder with resetPending := true } }

theorem test_witness_deferred_reset :
    ((resetBlock (segBlock 1 4)).decoder.resetPending = true ∧ (resetBlock (segBlock 1 4)).tracker.burst ≠ none
      ∧ (resetBlock (segBlock 1 4)).store.activeProgram ≠ none
      ∧ (resetBlock (closeBlock .normal 0)).tracker.state = .closing
      ∧ (resetBlock (closeBlock .normal 0)).tracker.burst = none)
    ∧ (∀ i ∈ [BankId.bank0, .bank1],
      let store := ((⟨.empty, .empty, ⟨some i, none, 0⟩⟩ : ProgramStore).setBank i (.loading lastRead)).setBank i.other
        (.active program)
      store.bank i = .loading lastRead ∧ (store.bank i.other).load? = none ∧ store.activeProgram = some program)
    ∧ (after .segment (segBlock 1 4)).tracker.state = .opened := by decide

/-- R21, R193: the deferred reset ends the load with ABORTED, at once after the SEGMENT, and after CLOSING. -/
theorem test_deferred_reset :
    let loads := fun (b : Block) => resetBlock { b with
      store := ⟨.active program, .loading lastRead, ⟨some .bank1, none, 0⟩⟩ }
    let ends := fun (b : Block) => (b.store.bank1, b.store.record.outcome, b.tracker.state, b.decoder.resetPending,
      b.decoder.resetCause)
    ends (after .segment (loads (segBlock 1 4))) = (.empty, some .aborted, .idle, false, .command)
    ∧ ends (after .closing (loads (closeBlock .normal 0))) = (.empty, some .aborted, .idle, false, .command)
    ∧ (after .closing (loads (closeBlock .normal 0))).writer.queue.length = 1 := by decide

theorem test_witness_command_rows :
    commandRow (.clearLog 9) = some (6, [⟨4, 1, 9⟩]) ∧ (Instr.clearLog 9).wellFormed = true
    ∧ commandRow (.unknownKind 10) = some (10, []) ∧ (Instr.unknownKind 10).wellFormed = true
    ∧ (after (.clearLog 9) bare).decoder.lastOutcome = .badArgument := by decide

theorem test_witness_logs :
    let b : Block := { bare with logs := { bare.logs with line := ⟨some ⟨.lLate, .minor, 0, 0, 7⟩, true⟩ } }
    (b.logs.log .line).held = some ⟨.lLate, .minor, 0, 0, 7⟩
    ∧ (Severity.minor).code < (Severity.degraded).code ∧ (Severity.minor).code ≤ (Severity.minor).code
    ∧ (b.logs.log .line).overflow = true ∧ (bare.logs.log .line).held = none ∧ bare.writer.queue.length < 32
    ∧ 32 ≤ (closeBlock .normal 32).writer.queue.length
    ∧ bare.line.gateMode ≠ .held ∧ ({ line1 with gateMode := .held } : Line).gateMode = .held := by decide

/-- R127: what follows a report, whatever its log did: containment, gate hold when enabled, or nothing. -/
theorem test_report_actions :
    let all : Line := { line1 with driver := .idle, config := { line1.config with holdOnTimeout := true } }
    let b : Block := { bare with line := all }
    (b.report ⟨.cAddrParity, .fatal, 0, 0, 0⟩).capture.containment = .contained
    ∧ (b.report ⟨.sDataParity, .degraded, 0, 0, 0⟩).system.containment = .opened
    ∧ (b.report ⟨.sDataParity, .fatal, 0, 0, 0⟩).system.containment = .contained
    ∧ (b.report ⟨.lFrameTimeout, .degraded, 0, 0, 0⟩).line.gateMode = .held
    ∧ (b.report ⟨.lLate, .minor, 0, 0, 0⟩).line.gateMode = .active := by decide

/-- R121: FULL_RESET of a driver in force leaves it DEAD for the old dead time, and the gate mode OFF. -/
theorem test_full_reset_while_driving :
    (after (.fullReset .pin 0 false) { bare with line := line1 }).line.driver = .dead .pass 3000 none
    ∧ (after (.fullReset .pin 0 false) { bare with line := line1 }).line.gateMode = .off := by decide

/-! ### Witnesses: rules over every command -/

theorem test_witness_every_command :
    (after (.encoderStep true false) (sampled false false)).line.position = 1
    ∧ (after (.arbiterGrant 0 false) (internalBlock (.producerWord 5) 0)).memory.sent.length = 1
    ∧ (after .boardEdgeLeading { bare with line := line2 8 }).logs.line.level = 3
    ∧ (offerBlock .waiting .opened running).store.BanksSound := by
  refine ⟨by decide, by decide, by decide, ⟨by decide, by decide, by decide, by decide, ?_⟩⟩
  intro i h
  exact absurd h (by cases i <;> decide)

/-- DEAD_TIME_END after PASS_GATE drives REJECT_GATE, with a dead time above 0. -/
theorem test_witness_other_gate :
    let b : Block := { bare with line := { line1 with driver := .dead .pass 5 (some (.action .reject 21700 11)) } }
    b.line.config.deadTime ≠ 0 ∧ b.line.driver.rejectGate = false
    ∧ (after .deadTimeEnd b).line.driver.rejectGate = true := by decide

/-- A state with a board, a frame, a ring, a load, an outstanding request and a held error, in which every invariant
below holds, and the next command. -/
def busy : Block :=
  { bare with
    capture := { Port.fresh .mark with
      buffer := [{ whole with stamp := 3 }], unanswered := [⟨3, 0x41, .write, false, none⟩] }
    memory := { bare.memory with table := [⟨55, .upstream .system 1, 5, 0x0120000040, 3, .read, 9⟩] }
    store := running
    tracker := { FrameTracker.fresh with
      state := .opened, number := 4, binding := some 5, progress := [⟨3, 0, 2⟩, ⟨2, 32, 1⟩] }
    joints := ⟨[program.header.newRecord 0 joint0], 1⟩
    line := { Line.fresh with
      serial := 6, queue := [⟨5, 1000, 21000, .imaging 4⟩], gateMode := .held, driver := .driving .reject none none
      config := { LineConfig.fresh with valid := true, diverter := 20000, window := 400 } }
    writer := ringWriter 17 2
    logs := { bare.logs with line := ⟨some ⟨.lLate, .minor, 0, 0, 7⟩, true⟩ }
    stamp := 5 }

def busyState : State := ⟨busy, [.closing]⟩

theorem test_busy_steps : ∃ t, step busyState = .next t := ⟨_, rfl⟩

theorem test_witness_counts : busyState.block.CountsBounded where
  writes i := by cases i <;> decide
  reads i := by cases i <;> decide
  internal := by decide
  records := by decide
  boards := by decide
  output := by decide
  run := by decide
  untracked := by decide
  drops := by decide
  limit := by decide
  settings := by decide

theorem test_witness_ring : busyState.block.writer.RingSound where
  unset h := absurd h (by decide)
  size r h := by
    obtain rfl : (⟨0x0100000000, 16, true⟩ : Ring) = r := Option.some.inj h
    exact ⟨0, by decide, rfl⟩
  occupancy r h := by
    obtain rfl : (⟨0x0100000000, 16, true⟩ : Ring) = r := Option.some.inj h
    decide
  room r _ h := absurd (by decide) h
  irq := ⟨fun _ => ⟨⟨0x0100000000, 16, true⟩, rfl, rfl, by decide⟩, fun _ => by decide⟩

theorem test_witness_hold : busyState.block.line.HoldSound where
  held := by decide
  passEnds o := by simp [busyState, busy]

theorem test_witness_table : busyState.block.memory.TableSound where
  tags := by decide
  distinct := by decide
  writes i := by cases i <;> decide
  reads i := by cases i <;> decide
  internal := by decide
  apart := by decide

theorem test_witness_banks : busyState.block.store.BanksSound where
  loading := by decide
  ready := by decide
  active := by decide
  candidate := by decide
  record i h := absurd h (by cases i <;> decide)

theorem test_witness_frame : busyState.block.FrameSound where
  banks := test_witness_banks
  active := by decide
  idle := by decide
  kind := by decide
  ascending := by decide
  below := by decide

theorem test_witness_boards : busyState.block.QueueSound where
  serials k h := by
    obtain rfl : k = 0 := Nat.lt_one_iff.mp h
    rfl
  due := by decide
  imaging x hx f h := by
    obtain rfl : x = ⟨5, 1000, 21000, .imaging 4⟩ := by simpa [busyState, busy] using hx
    injection h with h
    subst h
    decide

theorem test_witness_ports : busyState.block.PortsSound where
  writes i k h := by
    cases i
    · obtain rfl : k = 0 := Nat.lt_one_iff.mp h
      constructor <;> decide +revert
    · exact absurd h (by simp [busyState, busy, bare, State.reset, Block.fresh, Port.fresh, Block.port])
  held := by decide
  noReads i := by cases i <;> decide
  bufferStamps i := by cases i <;> decide
  openStamps i := by cases i <;> decide
  fresh i := by cases i <;> decide
  own i q hq a h := by
    cases i
    · obtain rfl : q = ⟨3, 0x41, .write, false, none⟩ := List.mem_singleton.mp hq
      cases h
    · exact absurd hq (by simp [busyState, busy, bare, State.reset, Block.fresh, Port.fresh, Block.port])
  waits i k h := by
    cases i
    · obtain rfl : k = 0 := Nat.lt_one_iff.mp h
      exact fun h => absurd rfl h
    · exact absurd h (by simp [busyState, busy, bare, State.reset, Block.fresh, Port.fresh, Block.port])

/-- The program of `busy` passes every check. -/
theorem test_witness_program : program.Sound := by
  constructor
  case regions =>
    intro j hj
    refine ⟨?_, ?_, ?_, ?_, ?_, ?_, ?_, ?_⟩
    case _ => revert j; decide
    case _ => revert j; decide
    case _ => revert j; decide
    case _ => revert j; decide
    case _ => revert j; decide
    case _ => revert j; decide
    case _ =>
      intro x _ h1
      have h2 : x ≤ 63 := le_trans h1 ((by decide : ∀ j ∈ program.joints, j.region.x1 ≤ 63) j hj)
      by_cases h3 : x ≤ 31
      · exact ⟨⟨0x41, 0, 31⟩, by decide, Nat.zero_le _, h3⟩
      · exact ⟨⟨0x42, 32, 63⟩, by decide, by show 32 ≤ x; omega, h2⟩
    case _ => revert j; decide
  case gaps =>
    intro j hj g hg
    have : g = ⟨48, 51, 3, 5⟩ ∧ j = joint1 := by
      rcases List.mem_cons.mp hj with rfl | hj
      · exact absurd hg (by simp [joint0])
      · obtain rfl : j = joint1 := by simpa using hj
        exact ⟨(Option.some.inj hg).symm, rfl⟩
    obtain ⟨rfl, rfl⟩ := this
    decide
  all_goals decide

theorem test_witness_programs : busyState.block.ProgramsSound where
  usable i p h := by
    cases i
    · obtain rfl : p = program := by
        rcases h with h | h
        · exact absurd h (by simp [busyState, busy, running, ProgramStore.bank])
        · exact (Bank.active.inj h).symm
      refine ⟨test_witness_program, by decide, ?_⟩
      intro r h
      obtain rfl : (⟨0x0100000000, 16, true⟩ : Ring) = r := Option.some.inj h
      decide
    · rcases h with h | h <;> exact absurd h (by simp [busyState, busy, running, ProgramStore.bank])
  ring r h := by
    obtain rfl : (⟨0x0100000000, 16, true⟩ : Ring) = r := Option.some.inj h
    decide
  loads i l h := absurd h (by cases i <;> simp [busyState, busy, running, ProgramStore.bank])

theorem test_witness_error_logs : busyState.block.logs.Sound where
  own src e h := by
    cases src <;> simp_all [busyState, busy, bare, State.reset, Block.fresh, ErrorLog.fresh, ErrorLogs.log]
    subst h; decide
  clear src h := by
    cases src <;> simp_all [busyState, busy, bare, State.reset, Block.fresh, ErrorLog.fresh, ErrorLogs.log]

end Sys2Proof.Tests
end

section
/-! SUPPORT. The two banks of the program store: reading a bank after one was replaced, what the operations of the store
make of the banks, and that each keeps R6. -/

namespace Sys2Proof.Machine

/-! ### Reading a bank -/

@[simp] theorem BankId.other_other (i : BankId) : i.other.other = i := by cases i <;> rfl

@[simp] theorem BankId.other_ne (i : BankId) : i.other ≠ i := by cases i <;> simp [BankId.other]

/-- A bank is the one named or the other one. -/
theorem BankId.eq_or_other (i j : BankId) : j = i ∨ j = i.other := by cases i <;> cases j <;> simp [BankId.other]

@[simp] theorem ProgramStore.bank_setBank (s : ProgramStore) (i : BankId) (x : Bank) : (s.setBank i x).bank i = x := by
  cases i <;> rfl

@[simp] theorem ProgramStore.bank_setBank_other (s : ProgramStore) (i : BankId) (x : Bank) :
    (s.setBank i x).bank i.other = s.bank i.other := by cases i <;> rfl

@[simp] theorem ProgramStore.bank_other_setBank (s : ProgramStore) (i : BankId) (x : Bank) :
    (s.setBank i.other x).bank i = s.bank i := by cases i <;> rfl

@[simp] theorem ProgramStore.setBank_record (s : ProgramStore) (i : BankId) (x : Bank) :
    (s.setBank i x).record = s.record := by cases i <;> rfl

/-- The record of a store is no part of its banks. -/
@[simp] theorem ProgramStore.bank_withRecord (s : ProgramStore) (r : LoadRecord) (i : BankId) :
    ({ s with record := r } : ProgramStore).bank i = s.bank i := by cases i <;> rfl

@[simp] theorem Bank.load?_isSome (x : Bank) : x.load?.isSome = true ↔ ∃ l, x = .loading l := by
  cases x <;> simp [Bank.load?]

@[simp] theorem Bank.ready?_isSome (x : Bank) : x.ready?.isSome = true ↔ ∃ p, x = .ready p := by
  cases x <;> simp [Bank.ready?]

@[simp] theorem Bank.active?_isSome (x : Bank) : x.active?.isSome = true ↔ ∃ p, x = .active p := by
  cases x <;> simp [Bank.active?]

@[simp] theorem Bank.load?_eq_none (x : Bank) : x.load? = none ↔ ∀ l, x ≠ .loading l := by
  cases x <;> simp [Bank.load?]

@[simp] theorem Bank.ready?_eq_none (x : Bank) : x.ready? = none ↔ ∀ p, x ≠ .ready p := by
  cases x <;> simp [Bank.ready?]

@[simp] theorem Bank.active?_eq_none (x : Bank) : x.active? = none ↔ ∀ p, x ≠ .active p := by
  cases x <;> simp [Bank.active?]

theorem Bank.load?_eq_some {x : Bank} {l : Load} : x.load? = some l ↔ x = .loading l := by
  cases x <;> simp [Bank.load?]

/-! ### Finding a bank -/

/-- The bank found has the property. -/
theorem ProgramStore.findBank_some {s : ProgramStore} {f : Bank → Bool} {i : BankId} (h : s.findBank f = some i) :
    f (s.bank i) = true := by
  unfold ProgramStore.findBank at h
  split_ifs at h with h0 h1
  · cases h; exact h0
  · cases h; exact h1

/-- A bank is found when one has the property. -/
theorem ProgramStore.findBank_none {s : ProgramStore} {f : Bank → Bool} :
    s.findBank f = none ↔ ∀ i, f (s.bank i) = false := by
  unfold ProgramStore.findBank
  constructor
  · intro h i
    split_ifs at h with h0 h1
    cases i
    · exact eq_false_of_ne_true h0
    · exact eq_false_of_ne_true h1
  · intro h
    have h0 : f s.bank0 = false := h .bank0
    have h1 : f s.bank1 = false := h .bank1
    simp [h0, h1]

/-- Of two banks the one with the property is found, when the other lacks it. -/
theorem ProgramStore.findBank_of_other {s : ProgramStore} {f : Bank → Bool} {i : BankId} (h : f (s.bank i) = true)
    (ho : f (s.bank i.other) = false) : s.findBank f = some i := by
  cases i
  · exact if_pos h
  · exact (if_neg (ne_true_of_eq_false ho)).trans (if_pos h)

/-- The LOADING bank holds the load in progress. -/
theorem ProgramStore.bank_of_loadingBank {s : ProgramStore} {i : BankId} (h : s.loadingBank = some i) :
    ∃ l, s.bank i = .loading l ∧ s.load? = some l := by
  obtain ⟨l, hl⟩ := (Bank.load?_isSome _).1 (ProgramStore.findBank_some h)
  exact ⟨l, hl, by simp [ProgramStore.load?, h, hl, Bank.load?]⟩

theorem ProgramStore.bank_of_readyBank {s : ProgramStore} {i : BankId} (h : s.readyBank = some i) :
    ∃ p, s.bank i = .ready p ∧ s.readyProgram = some p := by
  obtain ⟨p, hp⟩ := (Bank.ready?_isSome _).1 (ProgramStore.findBank_some h)
  exact ⟨p, hp, by simp [ProgramStore.readyProgram, h, hp, Bank.ready?]⟩

theorem ProgramStore.bank_of_activeBank {s : ProgramStore} {i : BankId} (h : s.activeBank = some i) :
    ∃ p, s.bank i = .active p ∧ s.activeProgram = some p := by
  obtain ⟨p, hp⟩ := (Bank.active?_isSome _).1 (ProgramStore.findBank_some h)
  exact ⟨p, hp, by simp [ProgramStore.activeProgram, h, hp, Bank.active?]⟩

/-- The load in progress stands in the LOADING bank. -/
theorem ProgramStore.bank_of_load? {s : ProgramStore} {l : Load} (h : s.load? = some l) :
    ∃ i, s.loadingBank = some i ∧ s.bank i = .loading l := by
  obtain ⟨i, hi, hl⟩ := Option.bind_eq_some_iff.1 h
  exact ⟨i, hi, Bank.load?_eq_some.1 hl⟩

theorem ProgramStore.loadingBank_eq_none {s : ProgramStore} :
    s.loadingBank = none ↔ ∀ i l, s.bank i ≠ .loading l := by
  simp [ProgramStore.loadingBank, ProgramStore.findBank_none]

theorem ProgramStore.readyBank_eq_none {s : ProgramStore} : s.readyBank = none ↔ ∀ i p, s.bank i ≠ .ready p := by
  simp [ProgramStore.readyBank, ProgramStore.findBank_none]

theorem ProgramStore.activeBank_eq_none {s : ProgramStore} : s.activeBank = none ↔ ∀ i p, s.bank i ≠ .active p := by
  simp [ProgramStore.activeBank, ProgramStore.findBank_none]

/-- The ACTIVE program is that of bank 0, or else that of bank 1. -/
theorem ProgramStore.activeProgram_eq (s : ProgramStore) :
    s.activeProgram = s.bank0.active?.or s.bank1.active? := by
  rcases s with ⟨x, y, r⟩
  cases x <;> cases y <;> rfl

/-- The ACTIVE program is that of the ACTIVE bank, when there is but one. -/
theorem ProgramStore.activeProgram_of_bank {s : ProgramStore} {i : BankId} {p : Program} (h : s.bank i = .active p)
    (ho : ∀ q, s.bank i.other ≠ .active q) : s.activeProgram = some p := by
  have hi : s.activeBank = some i := ProgramStore.findBank_of_other (by simp [h])
    (by simpa using ho)
  simp [ProgramStore.activeProgram, hi, h, Bank.active?]

theorem ProgramStore.readyProgram_of_bank {s : ProgramStore} {i : BankId} {p : Program} (h : s.bank i = .ready p)
    (ho : ∀ q, s.bank i.other ≠ .ready q) : s.readyProgram = some p := by
  have hi : s.readyBank = some i := ProgramStore.findBank_of_other (by simp [h])
    (by simpa using ho)
  simp [ProgramStore.readyProgram, hi, h, Bank.ready?]

/-- Replacing a bank that is not ACTIVE by one that is not ACTIVE keeps the ACTIVE program. -/
theorem ProgramStore.activeProgram_setBank {s : ProgramStore} {i : BankId} {x : Bank} (h : (s.bank i).active? = none)
    (hx : x.active? = none) : (s.setBank i x).activeProgram = s.activeProgram := by
  cases i
  · have h0 : s.bank0.active? = none := h
    simp only [ProgramStore.activeProgram_eq, ProgramStore.setBank, hx, h0]
  · have h1 : s.bank1.active? = none := h
    simp only [ProgramStore.activeProgram_eq, ProgramStore.setBank, hx, h1]

@[simp] theorem ProgramStore.activeProgram_withRecord (s : ProgramStore) (r : LoadRecord) :
    ({ s with record := r } : ProgramStore).activeProgram = s.activeProgram := by
  simp only [ProgramStore.activeProgram_eq]

/-! ### R6, bank by bank -/

/-- The banks of a sound store, seen from one of them: what stands in the other (R6, R7). -/
theorem ProgramStore.BanksSound.other {s : ProgramStore} (h : s.BanksSound) (i : BankId) :
    (∀ l, s.bank i = .loading l → s.loadingBank = some i ∧ s.record = ⟨some i, none, 0⟩
        ∧ (∀ m, s.bank i.other ≠ .loading m) ∧ ∀ p, s.bank i.other ≠ .ready p)
    ∧ (∀ p, s.bank i = .ready p → (∀ m, s.bank i.other ≠ .loading m) ∧ ∀ q, s.bank i.other ≠ .ready q)
    ∧ ∀ p, s.bank i = .active p → ∀ q, s.bank i.other ≠ .active q := by
  obtain ⟨hl, hr, ha, ⟨hc, hd⟩, hrec⟩ := h
  simp only [Bank.load?_isSome, Bank.ready?_isSome, Bank.active?_isSome] at hl hr ha hc hd
  have hload : ∀ l, s.bank i = .loading l → ∀ m, s.bank i.other ≠ .loading m := by
    cases i
    · exact fun l h0 m h1 => hl ⟨⟨l, h0⟩, m, h1⟩
    · exact fun l h0 m h1 => hl ⟨⟨m, h1⟩, l, h0⟩
  refine ⟨fun l h0 => ?_, ?_, ?_⟩
  · have hi : s.loadingBank = some i :=
      ProgramStore.findBank_of_other (by simp [h0]) (by simpa using hload l h0)
    refine ⟨hi, hrec i hi, hload l h0, ?_⟩
    cases i
    · exact fun p h1 => hc ⟨⟨l, h0⟩, p, h1⟩
    · exact fun p h1 => hd ⟨⟨p, h1⟩, l, h0⟩
  · cases i
    · exact fun p h0 => ⟨fun m h1 => hd ⟨⟨p, h0⟩, m, h1⟩, fun q h1 => hr ⟨⟨p, h0⟩, q, h1⟩⟩
    · exact fun p h0 => ⟨fun m h1 => hc ⟨⟨m, h1⟩, p, h0⟩, fun q h1 => hr ⟨⟨q, h1⟩, p, h0⟩⟩
  · cases i
    · exact fun p h0 q h1 => ha ⟨⟨p, h0⟩, q, h1⟩
    · exact fun p h0 q h1 => ha ⟨⟨q, h1⟩, p, h0⟩

/-- A store keeps to R6 when what stands in one bank allows what stands in the other (R6, R7). -/
theorem ProgramStore.BanksSound.of_bank {s : ProgramStore} (i : BankId)
    (hl : ∀ l, s.bank i = .loading l → s.record = ⟨some i, none, 0⟩
        ∧ (∀ m, s.bank i.other ≠ .loading m) ∧ ∀ p, s.bank i.other ≠ .ready p)
    (ho : ∀ l, s.bank i.other = .loading l → s.record = ⟨some i.other, none, 0⟩ ∧ ∀ p, s.bank i ≠ .ready p)
    (hr : ∀ p, s.bank i = .ready p → ∀ q, s.bank i.other ≠ .ready q)
    (ha : ∀ p, s.bank i = .active p → ∀ q, s.bank i.other ≠ .active q) : s.BanksSound := by
  have hrec : ∀ j, s.loadingBank = some j → s.record = ⟨some j, none, 0⟩ := by
    intro j hj
    obtain ⟨l, hb, -⟩ := ProgramStore.bank_of_loadingBank hj
    rcases i.eq_or_other j with rfl | rfl
    · exact (hl l hb).1
    · exact (ho l hb).1
  cases i
  · refine ⟨?_, ?_, ?_, ⟨?_, ?_⟩, hrec⟩ <;> simp only [Bank.load?_isSome, Bank.ready?_isSome, Bank.active?_isSome]
    · exact fun ⟨⟨l, h0⟩, m, h1⟩ => (hl l h0).2.1 m h1
    · exact fun ⟨⟨p, h0⟩, q, h1⟩ => hr p h0 q h1
    · exact fun ⟨⟨p, h0⟩, q, h1⟩ => ha p h0 q h1
    · exact fun ⟨⟨l, h0⟩, p, h1⟩ => (hl l h0).2.2 p h1
    · exact fun ⟨⟨p, h0⟩, m, h1⟩ => (ho m h1).2 p h0
  · refine ⟨?_, ?_, ?_, ⟨?_, ?_⟩, hrec⟩ <;> simp only [Bank.load?_isSome, Bank.ready?_isSome, Bank.active?_isSome]
    · exact fun ⟨⟨l, h0⟩, m, h1⟩ => (hl m h1).2.1 l h0
    · exact fun ⟨⟨p, h0⟩, q, h1⟩ => hr q h1 p h0
    · exact fun ⟨⟨p, h0⟩, q, h1⟩ => ha q h1 p h0
    · exact fun ⟨⟨l, h0⟩, p, h1⟩ => (ho l h0).2 p h1
    · exact fun ⟨⟨p, h0⟩, m, h1⟩ => (hl m h1).2.2 p h0

end Sys2Proof.Machine
end

section
/-! SUPPORT. What can become of the program store outside the opening of a frame, each with what R6 and the checks of
R14 to R17 need of it. -/

namespace Sys2Proof.Machine

/-- What a command makes of the program store, outside the opening of a frame: a load starts, goes on with what has
passed, ends without success, or is complete (R8, R9, R11 to R17). -/
inductive Block.StoreMove (b : Block) : ProgramStore → Prop
  | start (address : Addr) (h : b.store.loadingBank = none) : b.StoreMove (b.store.startLoad address)
  | goOn (l more : Load) (h : b.store.load? = some l) (hs : l.Sound → more.Sound) : b.StoreMove (b.store.setLoad more)
  | stop (outcome : LoadOutcome) (index : Nat) : b.StoreMove (b.store.endLoad outcome index)
  | finish (l : Load) (p : Program) (h : b.store.load? = some l) (hs : l.Sound → p.Sound)
      (hw : b.windowOverlap p = false) : b.StoreMove (b.store.finishLoad p)

/-- One bank replaced by `x`, and the record by `r`, beside a bank that is neither LOADING nor READY. The bank was not
ACTIVE and is not; LOADING it holds a sound load and READY a sound program clear of window and ring, if a load that
stood there was sound. -/
structure Block.Replaces (b : Block) (t : ProgramStore) (i : BankId) (x : Bank) (r : LoadRecord) : Prop where
  store : t = { b.store.setBank i x with record := r }
  notActive : ∀ p, b.store.bank i ≠ .active p
  otherLoad : ∀ l, b.store.bank i.other ≠ .loading l
  otherReady : ∀ p, b.store.bank i.other ≠ .ready p
  active : ∀ p, x ≠ .active p
  loading : ∀ l, x = .loading l → r = ⟨some i, none, 0⟩ ∧ ((∀ m, b.store.bank i = .loading m → m.Sound) → l.Sound)
  ready : ∀ p, x = .ready p →
    b.windowOverlap p = false ∧ ((∀ m, b.store.bank i = .loading m → m.Sound) → p.Sound)

/-- A load that starts holds nothing yet. -/
theorem Load.Sound.fresh (a : Addr) : (⟨a, none, [], [], [], 0, none⟩ : Load).Sound where
  bare _ := ⟨rfl, rfl⟩
  passed _ h := by simp at h

/-- The target of a new load is not ACTIVE, and the other bank is not READY (R8). -/
theorem ProgramStore.loadTarget_free {s : ProgramStore} (hs : s.BanksSound) :
    (∀ p, s.bank s.loadTarget ≠ .active p) ∧ ∀ p, s.bank s.loadTarget.other ≠ .ready p := by
  simp only [ProgramStore.loadTarget]
  rcases hr : s.readyBank with _ | i
  · have ready := ProgramStore.readyBank_eq_none.1 hr
    rcases ha : s.activeBank with _ | j
    · exact ⟨ProgramStore.activeBank_eq_none.1 ha _, ready _⟩
    · obtain ⟨p, hp, -⟩ := ProgramStore.bank_of_activeBank ha
      exact ⟨(hs.other j).2.2 p hp, ready _⟩
  · obtain ⟨p, hp, -⟩ := ProgramStore.bank_of_readyBank hr
    exact ⟨fun q hq => by simp [hp] at hq, ((hs.other i).2.1 p hp).2⟩

/-- Of a sound store, a move keeps everything or replaces one bank. -/
theorem Block.StoreMove.replaces {b : Block} {t : ProgramStore} (hs : b.store.BanksSound) (h : b.StoreMove t) :
    t = b.store ∨ ∃ i x r, b.Replaces t i x r := by
  have loading : ∀ {i l}, b.store.loadingBank = some i → b.store.bank i = .loading l → ∀ x r,
      (∀ p, x ≠ .active p) →
      (∀ m, x = .loading m → r = ⟨some i, none, 0⟩ ∧ (l.Sound → m.Sound)) →
      (∀ p, x = .ready p → b.windowOverlap p = false ∧ (l.Sound → p.Sound)) →
      b.Replaces { b.store.setBank i x with record := r } i x r := by
    intro i l hi hl x r hx hm hp
    obtain ⟨-, -, ho, hr⟩ := (hs.other i).1 l hl
    exact ⟨rfl, fun p hp => by simp [hl] at hp, ho, hr, hx,
      fun m h => ⟨(hm m h).1, fun k => (hm m h).2 (k l hl)⟩, fun p h => ⟨(hp p h).1, fun k => (hp p h).2 (k l hl)⟩⟩
  cases h with
  | start a h =>
    obtain ⟨ha, hr⟩ := ProgramStore.loadTarget_free hs
    exact .inr ⟨_, _, _, rfl, ha, fun l => ProgramStore.loadingBank_eq_none.1 h _ l, hr, by simp,
      fun l hl => ⟨rfl, fun _ => by cases hl; exact .fresh a⟩, by simp⟩
  | goOn l more h hm =>
    obtain ⟨i, hi, hl⟩ := ProgramStore.bank_of_load? h
    refine .inr ⟨i, .loading more, b.store.record, ?_⟩
    have hw : b.store.setLoad more = { b.store.setBank i (.loading more) with record := b.store.record } := by
      cases i <;> simp only [ProgramStore.setLoad, hi] <;> rfl
    rw [hw]
    exact loading hi hl _ _ (by simp) (fun m he => ⟨hs.record i hi, by cases he; exact hm⟩) (by simp)
  | stop outcome index =>
    rcases hb : b.store.loadingBank with _ | i
    · exact .inl (by simp [ProgramStore.endLoad, hb])
    · obtain ⟨l, hl, -⟩ := ProgramStore.bank_of_loadingBank hb
      refine .inr ⟨i, .empty, ⟨b.store.record.target, some outcome, index⟩, ?_⟩
      simp only [ProgramStore.endLoad, hb]
      exact loading hb hl _ _ (by simp) (by simp) (by simp)
  | finish l p h hp hw =>
    obtain ⟨i, hi, hl⟩ := ProgramStore.bank_of_load? h
    refine .inr ⟨i, .ready p, ⟨b.store.record.target, some .loaded, 0⟩, ?_⟩
    simp only [ProgramStore.finishLoad, hi]
    exact loading hi hl _ _ (by simp) (by simp) (fun q hq => by cases hq; exact ⟨hw, hp⟩)

/-- A move of the store keeps R6 and R7. -/
theorem Block.StoreMove.banksSound {b : Block} {t : ProgramStore} (hs : b.store.BanksSound) (h : b.StoreMove t) :
    t.BanksSound := by
  rcases h.replaces hs with rfl | ⟨i, x, r, rfl, -, ho, hr, ha, hl, -⟩
  · exact hs
  · apply ProgramStore.BanksSound.of_bank i <;>
      simp only [ProgramStore.bank_withRecord, ProgramStore.bank_setBank, ProgramStore.bank_setBank_other]
    · exact fun l h => ⟨(hl l h).1, ho, hr⟩
    · exact fun l h => absurd h (ho l)
    · exact fun p _ => hr
    · exact fun p h => absurd h (ha p)

/-- A move of the store keeps the ACTIVE program (R6). -/
theorem Block.StoreMove.activeProgram {b : Block} {t : ProgramStore} (hs : b.store.BanksSound) (h : b.StoreMove t) :
    t.activeProgram = b.store.activeProgram := by
  rcases h.replaces hs with rfl | ⟨i, x, r, rfl, hi, -, -, ha, -, -⟩
  · rfl
  · rw [ProgramStore.activeProgram_withRecord]
    exact ProgramStore.activeProgram_setBank (by simpa using hi) (by simpa using ha)

/-- A program that a move of the store makes usable is sound and clear of window and ring, and a load that it leaves in
a bank is sound, if the banks were so (R13, R17). -/
theorem Block.StoreMove.programs {b : Block} {t : ProgramStore} (hs : b.store.BanksSound) (h : b.StoreMove t)
    (hl : ∀ i l, b.store.bank i = .loading l → l.Sound) :
    (∀ i p, t.bank i = .ready p ∨ t.bank i = .active p →
      (b.store.bank i = .ready p ∨ b.store.bank i = .active p) ∨ (p.Sound ∧ b.windowOverlap p = false))
    ∧ ∀ i l, t.bank i = .loading l → l.Sound := by
  rcases h.replaces hs with rfl | ⟨i, x, r, rfl, -, -, -, ha, hload, hready⟩
  · exact ⟨fun _ _ h => .inl h, hl⟩
  · refine ⟨fun j p hp => ?_, fun j l hj => ?_⟩
    · rcases i.eq_or_other j with rfl | rfl
      · simp only [ProgramStore.bank_withRecord, ProgramStore.bank_setBank] at hp
        obtain ⟨hw, hp⟩ := hready p (hp.resolve_right (ha p))
        exact .inr ⟨hp (hl j), hw⟩
      · exact .inl (by simpa using hp)
    · rcases i.eq_or_other j with rfl | rfl
      · exact (hload l (by simpa using hj)).2 (hl j)
      · exact hl _ l (by simpa using hj)

/-! ### The exchange at frame open (R18) -/

/-- The exchange with one READY bank: it becomes ACTIVE, and the other EMPTY if it was ACTIVE (R18). -/
theorem ProgramStore.exchange_of_ready {s : ProgramStore} {i : BankId} {p : Program} (hs : s.BanksSound)
    (h : s.bank i = .ready p) :
    s.exchange = ((if s.activeBank = some i.other then s.setBank i.other .empty else s).setBank i (.active p)) := by
  have hr : s.readyBank = some i := ProgramStore.findBank_of_other (by simp [h])
    (by simpa using ((hs.other i).2.1 p h).2)
  have hp : s.readyProgram = some p := ProgramStore.readyProgram_of_bank h ((hs.other i).2.1 p h).2
  simp only [ProgramStore.exchange, hr, hp]
  rcases ha : s.activeBank with _ | j
  · simp
  · rcases i.eq_or_other j with rfl | rfl
    · obtain ⟨q, hq, -⟩ := ProgramStore.bank_of_activeBank ha
      simp [h] at hq
    · simp

/-- The exchange of a sound store: the READY bank becomes ACTIVE and the other one is EMPTY. -/
theorem ProgramStore.exchange_eq {s : ProgramStore} {i : BankId} {p : Program} (hs : s.BanksSound)
    (h : s.bank i = .ready p) : s.exchange = (s.setBank i.other .empty).setBank i (.active p) := by
  rw [ProgramStore.exchange_of_ready hs h]
  split_ifs with ha
  · rfl
  · have ho : s.bank i.other = .empty := by
      obtain ⟨hl, hr⟩ := (hs.other i).2.1 p h
      rcases hb : s.bank i.other with _ | l | q | q
      · rfl
      · exact absurd hb (hl l)
      · exact absurd hb (hr q)
      · refine absurd (ProgramStore.findBank_of_other (by simp [hb]) ?_) ha
        simp [h]
    cases i <;> simp_all [ProgramStore.setBank, ProgramStore.bank, BankId.other]

/-- Without a READY bank nothing is exchanged (R18). -/
theorem ProgramStore.exchange_none {s : ProgramStore} (h : s.readyBank = none) : s.exchange = s := by
  simp [ProgramStore.exchange, h]

/-- The exchange keeps R6 and makes the candidate's program the ACTIVE one (R18, R24). -/
theorem ProgramStore.exchange_sound {s : ProgramStore} (hs : s.BanksSound) :
    s.exchange.BanksSound ∧ s.exchange.activeProgram = s.candidate
    ∧ (∀ i p, s.exchange.bank i = .ready p ∨ s.exchange.bank i = .active p → s.bank i = .ready p ∨ s.bank i = .active p)
    ∧ ∀ i l, s.exchange.bank i = .loading l → s.bank i = .loading l := by
  rcases hr : s.readyBank with _ | i
  · rw [ProgramStore.exchange_none hr]
    have : s.candidate = s.activeProgram := by simp [ProgramStore.candidate, ProgramStore.readyProgram, hr]
    exact ⟨hs, this.symm, fun _ _ h => h, fun _ _ h => h⟩
  · obtain ⟨p, hp, hrp⟩ := ProgramStore.bank_of_readyBank hr
    have hc : s.candidate = some p := by simp [ProgramStore.candidate, hrp]
    rw [ProgramStore.exchange_eq hs hp, hc]
    refine ⟨.of_bank i ?_ ?_ ?_ ?_, ProgramStore.activeProgram_of_bank (i := i) ?_ ?_, fun j q hq => ?_,
      fun j l hj => ?_⟩
    · simp
    · simp
    · simp
    · simp
    · simp
    · simp
    · rcases i.eq_or_other j with rfl | rfl
      · simp at hq; simp [hp, hq]
      · simp at hq
    · rcases i.eq_or_other j with rfl | rfl
      · simp at hj
      · simp at hj

end Sys2Proof.Machine
end

section
/-! SUPPORT. The validation of a program image: fields of bytes (R198), each check of R14 to R16 as the ranges it tests,
and that what a load keeps has passed them. -/

namespace Sys2Proof.Machine

/-! ### Fields (R198) -/

/-- A field is its first byte and 256 times the field behind it. -/
theorem fieldAt_succ (bytes : List Byte) (offset size : Nat) :
    fieldAt bytes offset (size + 1) = ((bytes[offset]?).getD 0).toNat + 256 * fieldAt bytes (offset + 1) size := by
  unfold fieldAt
  rw [← List.drop_drop]
  rcases h : bytes.drop offset with _ | ⟨x, rest⟩
  · have : bytes[offset]? = none := by simpa using List.drop_eq_nil_iff.1 h
    simp [this, leNat]
  · have : bytes[offset]? = some x := by
      rw [← List.head?_drop, h, List.head?_cons]
    simp [this, leNat]

/-- A field as the sum of its bytes, little-endian; bytes beyond the end count 0. -/
theorem fieldAt_eq_sum (bytes : List Byte) (offset size : Nat) :
    fieldAt bytes offset size = ((List.range size).map fun k => ((bytes[offset + k]?).getD 0).toNat * 256 ^ k).sum := by
  induction size generalizing offset with
  | zero => simp [fieldAt, leNat]
  | succ size ih =>
    rw [fieldAt_succ, ih, List.range_succ_eq_map, List.map_cons, List.sum_cons, List.map_map, ← List.sum_map_mul_left]
    congr 1
    · simp
    · congr 1
      apply List.map_congr_left
      intro k _
      simp only [Function.comp_apply, Nat.succ_eq_add_one, pow_succ, Nat.add_assoc, Nat.add_comm 1 k]
      ring

theorem fieldAt_lt (bytes : List Byte) (offset size : Nat) : fieldAt bytes offset size < 256 ^ size := by
  induction size generalizing offset with
  | zero => simp [fieldAt, leNat]
  | succ size ih =>
    have h := ih (offset + 1)
    have hb : ((bytes[offset]?).getD 0).toNat < 256 := ((bytes[offset]?).getD 0).isLt
    rw [fieldAt_succ, pow_succ]
    omega

/-! ### The checks of R14 to R16 -/

/-- FORMAT (R14). -/
theorem checkFormat_iff (bytes : List Byte) : checkFormat bytes = true ↔
    fieldAt bytes 0 4 = 7 ∧ 1 ≤ fieldAt bytes 25 1 ∧ fieldAt bytes 25 1 ≤ 64 ∧ 1 ≤ fieldAt bytes 26 2
      ∧ fieldAt bytes 26 2 ≤ 4096 := by
  simp only [checkFormat, Bool.and_eq_true, decide_eq_true_eq, and_assoc]
  rfl

/-- GEOMETRY (R14). -/
theorem checkGeometry_iff (bytes : List Byte) : checkGeometry bytes = true ↔
    fieldAt bytes 8 8 % 16 = 0 ∧ 1 ≤ fieldAt bytes 16 2 ∧ fieldAt bytes 16 2 ≤ 8192 ∧ 1 ≤ fieldAt bytes 18 2
      ∧ fieldAt bytes 18 2 ≤ 32768 ∧ fieldAt bytes 20 4 % 16 = 0 ∧ fieldAt bytes 16 2 * 4 ≤ fieldAt bytes 20 4
      ∧ fieldAt bytes 20 4 ≤ 65536 ∧ fieldAt bytes 8 8 + fieldAt bytes 18 2 * fieldAt bytes 20 4 - 1 < 2 ^ 40 := by
  simp only [checkGeometry, Bool.and_eq_true, decide_eq_true_eq, and_assoc]
  rfl

/-- A good base is the base of the header, whole. -/
theorem parseHeader_base {bytes : List Byte} (h : checkGeometry bytes = true) :
    (parseHeader bytes).base.toNat = fieldAt bytes 8 8 := by
  obtain ⟨-, hw, -, hh, -, -, hp, -, hb⟩ := (checkGeometry_iff bytes).1 h
  have hpos : 1 ≤ fieldAt bytes 18 2 * fieldAt bytes 20 4 := Nat.mul_pos hh (by omega)
  simp only [parseHeader, BitVec.toNat_ofNat]
  exact Nat.mod_eq_of_lt (by omega)

/-- Lanes ascend when each ends before the next begins. -/
theorem lanesAscend_iff (l : List Lane) : lanesAscend l = true ↔ l.IsChain fun a b => a.last < b.first := by
  induction l with
  | nil => simp [lanesAscend]
  | cons a l ih =>
    cases l with
    | nil => simp [lanesAscend]
    | cons b l => simp [lanesAscend, ih, List.isChain_cons_cons]

/-- Lanes that ascend and are not empty lie apart, all of them. -/
theorem lanesAscend_pairwise {l : List Lane} (h : lanesAscend l = true) (hl : ∀ x ∈ l, x.first ≤ x.last) :
    l.Pairwise fun a b => a.last < b.first := by
  have hc := (lanesAscend_iff l).1 h
  have : l.IsChain fun a b => a.last < b.first ∧ b.first ≤ b.last := by
    refine hc.imp_of_mem_imp fun a b _ hb hab => ⟨hab, hl b hb⟩
  have trans : IsTrans Lane fun a b => a.last < b.first ∧ b.first ≤ b.last :=
    ⟨fun a b c hab hbc => ⟨by omega, hbc.2⟩⟩
  exact (List.isChain_iff_pairwise.1 this).imp And.left

/-- Master IDs of lanes differ when their bytes do (R15). -/
theorem parseLane_masters (bytes : List Byte) (n : Nat) :
    (((List.range n).map (parseLane bytes)).map (·.master)).Nodup ↔
      ∀ j < n, ∀ k < n, fieldAt bytes (32 + 8 * j) 1 = fieldAt bytes (32 + 8 * k) 1 → j = k := by
  have hinj : ∀ j k, (parseLane bytes j).master = (parseLane bytes k).master ↔
      fieldAt bytes (32 + 8 * j) 1 = fieldAt bytes (32 + 8 * k) 1 := by
    intro j k
    have hj := fieldAt_lt bytes (32 + 8 * j) 1
    have hk := fieldAt_lt bytes (32 + 8 * k) 1
    simp only [parseLane, ← BitVec.toNat_inj, BitVec.toNat_ofNat]
    rw [Nat.mod_eq_of_lt (by simpa using hj), Nat.mod_eq_of_lt (by simpa using hk)]
  rw [List.map_map, List.nodup_map_iff_inj_on List.nodup_range]
  simp only [List.mem_range, Function.comp_apply, hinj]

/-- LANES (R15). -/
theorem checkLanes_iff (bytes : List Byte) : checkLanes bytes = true ↔
    1 ≤ fieldAt bytes 24 1 ∧ fieldAt bytes 24 1 ≤ 4
      ∧ (∀ k < fieldAt bytes 24 1, fieldAt bytes (32 + 8 * k + 2) 2 ≤ fieldAt bytes (32 + 8 * k + 4) 2
        ∧ fieldAt bytes (32 + 8 * k + 4) 2 < fieldAt bytes 16 2)
      ∧ (∀ k, k + 1 < fieldAt bytes 24 1 →
        fieldAt bytes (32 + 8 * k + 4) 2 < fieldAt bytes (32 + 8 * (k + 1) + 2) 2)
      ∧ ∀ j < fieldAt bytes 24 1, ∀ k < fieldAt bytes 24 1,
        fieldAt bytes (32 + 8 * j) 1 = fieldAt bytes (32 + 8 * k) 1 → j = k := by
  rw [← parseLane_masters]
  simp only [checkLanes, Bool.and_eq_true, decide_eq_true_eq, and_assoc, List.all_eq_true, lanesAscend_iff,
    List.isChain_iff_getElem]
  simp only [parseHeader, List.mem_map, List.mem_range, forall_exists_index, and_imp, forall_apply_eq_imp_iff₂,
    List.length_map, List.length_range, List.getElem_map, List.getElem_range, parseLane]

/-- RECIPE (R16). -/
theorem parseRecipe_inRange (bytes : List Byte) : (parseRecipe bytes).inRange = true ↔
    fieldAt bytes 0 2 ≤ 3069 ∧ fieldAt bytes 2 2 ≤ 3069 ∧ ∀ o ∈ [4, 6, 8, 10, 12], fieldAt bytes o 2 ≤ 256 := by
  simp only [Recipe.inRange, Bool.and_eq_true, decide_eq_true_eq, and_assoc, List.forall_mem_cons,
    List.not_mem_nil, false_implies, implies_true, and_true]
  rfl

/-- Every column of a range lies in some lane (R16). -/
theorem columnsInLanes_iff (h : Header) (x0 x1 : Nat) : columnsInLanes h x0 x1 = true ↔
    ∀ x, x0 ≤ x → x ≤ x1 → ∃ l ∈ h.lanes, l.first ≤ x ∧ x ≤ l.last := by
  simp only [columnsInLanes, List.all_eq_true, List.any_eq_true, Lane.holds, Bool.and_eq_true, decide_eq_true_eq,
    List.mem_range]
  constructor
  · intro hd x h0 h1
    have := hd (x - x0) (by omega)
    rwa [Nat.add_sub_cancel' h0] at this
  · exact fun hx d hd => hx (x0 + d) (by omega) (by omega)

/-- JOINT_RANGE, but for the weight code (R16). -/
theorem checkRegion_iff (h : Header) (r : Rect) (recipe : Nat) : checkRegion h r recipe = true ↔
    r.x0 ≤ r.x1 ∧ r.y0 ≤ r.y1 ∧ r.x1 < h.width ∧ r.y1 < h.height ∧ r.x1 - r.x0 + 1 ≤ 256 ∧ r.y1 - r.y0 + 1 ≤ 256
      ∧ (∀ x, r.x0 ≤ x → x ≤ r.x1 → ∃ l ∈ h.lanes, l.first ≤ x ∧ x ≤ l.last) ∧ recipe < h.recipeCount := by
  simp only [checkRegion, Bool.and_eq_true, decide_eq_true_eq, and_assoc, columnsInLanes_iff]

/-- GAP (R16). -/
theorem checkGap_iff (h : Header) (region g : Rect) : checkGap h region g = true ↔
    g.x0 ≤ g.x1 ∧ g.y0 ≤ g.y1 ∧ g.x1 < h.width ∧ g.y1 < h.height ∧ g.x1 - g.x0 + 1 ≤ 64 ∧ g.y1 - g.y0 + 1 ≤ 256
      ∧ (∃ l ∈ h.lanes, l.first ≤ g.x0 ∧ g.x0 ≤ l.last ∧ l.first ≤ g.x1 ∧ g.x1 ≤ l.last) ∧ region.y0 ≤ g.y0 := by
  simp only [checkGap, Bool.and_eq_true, decide_eq_true_eq, and_assoc, List.any_eq_true, Lane.holds]

/-- A joint entry that passes: in order, in range, its gap in range (R16). -/
theorem checkJoint_ok {h : Header} {previous : Option Joint} {bytes : List Byte} {j : Joint}
    (hj : checkJoint h previous bytes = .ok j) :
    (∀ q, previous = some q → q.region.y0 ≤ j.region.y0) ∧ checkRegion h j.region j.recipe = true
      ∧ ∀ g, j.gap = some g → checkGap h j.region g = true := by
  simp only [checkJoint] at hj
  split_ifs at hj with ho hr
  have hprev : ∀ q, previous = some q → q.region.y0 ≤ (parseRegion bytes).y0 := by
    rintro q rfl
    simpa using ho
  have hreg : checkRegion h (parseRegion bytes) (fieldAt bytes 10 1) = true := by simpa using hr
  rcases hw : weightOfCode (fieldAt bytes 11 1) with _ | w
  · simp [hw] at hj
  · rcases hg : parseGap bytes with _ | g
    · simp only [hw, hg, Except.ok.injEq] at hj
      subst hj
      exact ⟨hprev, hreg, fun g h => by simp at h⟩
    · simp only [hw, hg] at hj
      split_ifs at hj with hc
      simp only [Except.ok.injEq] at hj
      subst hj
      exact ⟨hprev, hreg, fun g' h => by cases h; exact hc⟩

/-! ### What a load keeps -/

/-- The soundness of a load goes by its header and what it has validated. -/
theorem Load.Sound.of_items {l m : Load} (hs : l.Sound) (hh : m.header = l.header) (hr : m.recipes = l.recipes)
    (hj : m.joints = l.joints) : m.Sound := by
  obtain ⟨hb, hp⟩ := hs
  constructor
  · rwa [hh, hr, hj]
  · rwa [hh, hr, hj]

/-- What a validation keeps or completes is sound. -/
def Validation.Sound : Validation → Prop
  | .more l => l.Sound
  | .failed _ _ => True
  | .passed p => p.Sound

/-- The joints of a load stay in order when the last one allows the new one (R16). -/
theorem joints_pairwise_append {l : List Joint} {j : Joint}
    (h : l.Pairwise fun a b => a.region.y0 ≤ b.region.y0)
    (hj : ∀ q, l.getLast? = some q → q.region.y0 ≤ j.region.y0) :
    (l ++ [j]).Pairwise fun a b => a.region.y0 ≤ b.region.y0 := by
  rw [List.pairwise_append]
  refine ⟨h, List.pairwise_singleton _ _, fun a ha b hb => ?_⟩
  obtain rfl := List.mem_singleton.1 hb
  obtain ⟨q, hq⟩ : ∃ q, l.getLast? = some q := by
    rw [List.getLast?_eq_some_getLast (List.ne_nil_of_mem ha)]; exact ⟨_, rfl⟩
  obtain ⟨before, rfl⟩ := List.getLast?_eq_some_iff.1 hq
  rcases List.mem_append.1 ha with ha | ha
  · exact le_trans ((List.pairwise_append.1 h).2.2 a ha q (by simp)) (hj q hq)
  · obtain rfl := List.mem_singleton.1 ha
    exact hj _ hq

/-- A header that passes FORMAT, GEOMETRY and LANES makes a sound load of a bare one (R14, R15). -/
theorem Load.Sound.of_header {l m : Load} (hs : l.Sound) (hl : l.header = none) (hf : checkFormat l.received = true)
    (hg : checkGeometry l.received = true) (hn : checkLanes l.received = true)
    (hm : m.header = some (parseHeader l.received)) (hr : m.recipes = l.recipes) (hj : m.joints = l.joints) :
    m.Sound := by
  obtain ⟨hbr, hbj⟩ := hs.bare hl
  refine ⟨fun h => by simp [hm] at h, fun h hh => ?_⟩
  obtain rfl : parseHeader l.received = h := by simpa [hm] using hh
  obtain ⟨-, hrec⟩ := (checkFormat_iff _).1 hf
  have hbase := parseHeader_base hg
  obtain ⟨hb, hw1, hw2, hh1, hh2, hp1, hp2, hp3, hwin⟩ := (checkGeometry_iff _).1 hg
  simp only [checkLanes, Bool.and_eq_true, decide_eq_true_eq, List.all_eq_true] at hn
  obtain ⟨⟨⟨⟨hc1, hc2⟩, hin⟩, hasc⟩, hmas⟩ := hn
  refine ⟨⟨by rwa [hbase], hw1, hw2, hh1, hh2, hp1, hp2, hp3, ?_, ?_, ?_, hin,
    lanesAscend_pairwise hasc fun x hx => (hin x hx).1, hmas, hrec⟩, ?_⟩
  · simp only [Header.window, hbase]; exact hwin
  · simpa [parseHeader] using hc1
  · simpa [parseHeader] using hc2
  · obtain ⟨-, -, hj1, -⟩ := hrec
    rw [hr, hj, hbr, hbj]
    exact ⟨by simp, by simp, hj1, by simp, by simp, by simp⟩

/-- A recipe that passes keeps a load sound (R16). -/
theorem Load.Sound.add_recipe {l m : Load} {h : Header} {r : Recipe} (hs : l.Sound) (hl : l.header = some h)
    (hlt : l.recipes.length < h.recipeCount) (hr : r.inRange = true) (hm : m.header = l.header)
    (hmr : m.recipes = l.recipes ++ [r]) (hmj : m.joints = l.joints) : m.Sound := by
  refine ⟨fun h' => by simp [hm, hl] at h', fun h' hh => ?_⟩
  obtain rfl : h = h' := by simpa [hm, hl] using hh
  obtain ⟨hhead, hle, hnone, hjlt, hrec, hord, hj⟩ := hs.passed h hl
  rw [hmr, hmj]
  refine ⟨hhead, by simp; omega, fun _ => hnone hlt, hjlt, fun x hx => ?_, hord, hj⟩
  rcases List.mem_append.1 hx with hx | hx
  · exact hrec x hx
  · rwa [List.mem_singleton.1 hx]

/-- The items of a load with one joint more, which has passed (R16). -/
theorem Load.Sound.joint_items {l : Load} {h : Header} {j : Joint} {bytes : List Byte} (hs : l.Sound)
    (hl : l.header = some h) (hj : checkJoint h l.joints.getLast? bytes = .ok j) :
    ((l.joints ++ [j]).Pairwise fun a b => a.region.y0 ≤ b.region.y0)
      ∧ ∀ x ∈ l.joints ++ [j], checkRegion h x.region x.recipe = true
        ∧ ∀ g, x.gap = some g → checkGap h x.region g = true := by
  obtain ⟨-, -, -, -, -, hord, hall⟩ := hs.passed h hl
  obtain ⟨hprev, hreg, hgap⟩ := checkJoint_ok hj
  refine ⟨joints_pairwise_append hord hprev, fun x hx => ?_⟩
  rcases List.mem_append.1 hx with hx | hx
  · exact hall x hx
  · rw [List.mem_singleton.1 hx]; exact ⟨hreg, hgap⟩

/-- The last joint that passes makes a sound program (R13, R16). -/
theorem Load.Sound.program {l : Load} {h : Header} {j : Joint} {bytes : List Byte} (hs : l.Sound)
    (hl : l.header = some h) (hr : h.recipeCount ≤ l.recipes.length)
    (hj : checkJoint h l.joints.getLast? bytes = .ok j) (hc : h.jointCount ≤ (l.joints ++ [j]).length) :
    (⟨h, l.recipes, l.joints ++ [j]⟩ : Program).Sound := by
  obtain ⟨⟨hb, hw1, hw2, hh1, hh2, hp1, hp2, hp3, hwin, hl1, hl2, hin, hap, hmas, hr1, hr2, hj1, hj2⟩, hle, -, hjlt,
    hrec, -, -⟩ := hs.passed h hl
  obtain ⟨hord, hall⟩ := hs.joint_items hl hj
  have hrlen : l.recipes.length = h.recipeCount := le_antisymm hle hr
  have hjlen : (l.joints ++ [j]).length = h.jointCount := by simp at hc ⊢; omega
  exact {
    base := hb, width := ⟨hw1, hw2⟩, height := ⟨hh1, hh2⟩, pitch := ⟨hp1, hp2, hp3⟩, window := hwin
    laneCount := ⟨hl1, hl2⟩, lanes := hin, lanesApart := hap, masters := hmas
    recipeCount := ⟨hrlen, hrlen ▸ hr1, hrlen ▸ hr2⟩
    jointCount := ⟨hjlen, hjlen ▸ hj1, hjlen ▸ hj2⟩
    recipes := hrec
    order := hord
    regions := fun x hx => by
      simpa only [hrlen] using (checkRegion_iff h x.region x.recipe).1 (hall x hx).1
    gaps := fun x hx g hg => by
      obtain ⟨hx01, hy01, hx1, hy1, hdx, hdy, ⟨lane, hm, h0, -, -, h1⟩, hy⟩ :=
        (checkGap_iff h x.region g).1 ((hall x hx).2 g hg)
      exact ⟨hx01, hy01, hx1, hy1, hdx, hdy, ⟨lane, hm, h0, h1⟩, hy⟩ }

/-- The items of a sound load validate to what is sound (R13, R16). -/
theorem validateItems_sound {h : Header} (n : Nat) {l : Load} (hs : l.Sound) (hl : l.header = some h) :
    (validateItems h n l).Sound := by
  induction n generalizing l with
  | zero => exact hs
  | succ n ih =>
    unfold validateItems
    split
    · next hrec =>
      split
      · exact hs
      · simp only
        split
        · next hin => exact ih (hs.add_recipe hl hrec hin rfl rfl rfl) hl
        · trivial
    · next hrec =>
      split
      · exact hs
      · split
        · trivial
        · next j hj =>
          obtain ⟨hord, hall⟩ := hs.joint_items hl hj
          obtain ⟨hhead, hle, -, -, hr, -, -⟩ := hs.passed h hl
          simp only
          split
          · next hc =>
            refine ih (l := { l with joints := l.joints ++ [j], received := l.received.drop 24 })
              ⟨fun h' => by simp [hl] at h', fun h' hh => ?_⟩ hl
            obtain rfl : h = h' := by simpa [hl] using hh
            exact ⟨hhead, hle, fun h' => absurd h' hrec, hc, hr, hord, hall⟩
          · next hc => exact hs.program hl (by omega) hj (by omega)

/-- What a sound load has received validates to what is sound (R13 to R16). -/
theorem Load.validate_sound {l : Load} (hs : l.Sound) : l.validate.Sound := by
  unfold Load.validate
  split
  · next h hl => exact validateItems_sound _ hs hl
  · next hl =>
    split_ifs with hlen hf hg hn
    · exact hs
    · trivial
    · trivial
    · trivial
    · simp only [Bool.not_eq_true, Bool.not_eq_false'] at hf hg hn
      exact hs.of_header hl hf hg hn rfl rfl rfl

end Sys2Proof.Machine
end

section
/-! SUPPORT. What one command can do to the program store, the frame, the open joint set, the ring and the mailbox
window: the invariants on these follow from it. -/

namespace Sys2Proof.Machine

/-! ### Quiet changes -/

/-- A tracker left as it was, or whose OPEN frame has been closed (R40). -/
def FrameTracker.ClosesTo (k t : FrameTracker) : Prop :=
  t = k ∨ (k.state = .opened ∧ ∃ kind, t = { k with state := .closing, closeKind := some kind })

theorem FrameTracker.ClosesTo.trans {k l m : FrameTracker} (h : k.ClosesTo l) (h' : l.ClosesTo m) : k.ClosesTo m := by
  rcases h with rfl | ⟨ho, kind, rfl⟩
  · exact h'
  · rcases h' with rfl | ⟨hc, -⟩
    · exact .inr ⟨ho, kind, rfl⟩
    · simp at hc

/-- Banks, ring and mailbox window are as they were. -/
structure Block.Steady (b t : Block) : Prop where
  store : t.store = b.store
  ring : t.writer.ring = b.writer.ring
  window : t.decoder.windowBase = b.decoder.windowBase

/-- Banks, ring, mailbox window and open joint set are as they were, and the frame but for a close. -/
structure Block.Quiet (b t : Block) : Prop extends b.Steady t where
  joints : t.joints = b.joints
  tracker : b.tracker.ClosesTo t.tracker

theorem Block.Steady.trans {b c t : Block} (h : b.Steady c) (h' : c.Steady t) : b.Steady t :=
  ⟨h'.store.trans h.store, h'.ring.trans h.ring, h'.window.trans h.window⟩

theorem Block.Quiet.trans {b c t : Block} (h : b.Quiet c) (h' : c.Quiet t) : b.Quiet t :=
  ⟨h.toSteady.trans h'.toSteady, h'.joints.trans h.joints, h.tracker.trans h'.tracker⟩

theorem Block.Quiet.after {b c t : Block} (h' : c.Quiet t) (h : b.Quiet c) : b.Quiet t := h.trans h'

/-- A change of other parts is quiet. -/
theorem Block.Quiet.of_parts {b t : Block} (hs : t.store = b.store) (hr : t.writer.ring = b.writer.ring)
    (hw : t.decoder.windowBase = b.decoder.windowBase) (hj : t.joints = b.joints) (ht : t.tracker = b.tracker) :
    b.Quiet t := ⟨⟨hs, hr, hw⟩, hj, .inl ht⟩

theorem Block.Quiet.refl (b : Block) : b.Quiet b := .of_parts rfl rfl rfl rfl rfl

/-! ### The shared operations -/

variable (b : Block)

@[simp] theorem RecordWriter.offer_ring (w : RecordWriter) (r : RingRecord) : (w.offer r).ring = w.ring := by
  unfold RecordWriter.offer; split <;> rfl

@[simp] theorem Block.offerBoard_ring (r : BoardResult) : (b.offerBoard r).writer.ring = b.writer.ring := by
  simp [Block.offerBoard]

@[simp] theorem Block.offerNotice_ring (r : NoticeResult) : (b.offerNotice r).writer.ring = b.writer.ring := by
  simp [Block.offerNotice]

@[simp] theorem Block.giveResult_ring (r : JointResult) : (b.giveResult r).writer.ring = b.writer.ring := by
  unfold Block.giveResult Block.offerJoint
  split_ifs <;> rfl

@[simp] theorem Block.judgeEach_ring (p : Program) (k : Accumulator → HandOver) (l : List Accumulator) :
    (l.foldl (fun b a => Block.judgeRecord p (k a) b a.closeGapRow) b).writer.ring = b.writer.ring := by
  induction l generalizing b with
  | nil => rfl
  | cons a l ih => rw [List.foldl_cons, ih, Block.judgeRecord, Block.giveResult_ring]

@[simp] theorem Block.judgeAbsents_ring (p : Program) (c : Cause) (l : List Nat) :
    (l.foldl (Block.judgeAbsent p c) b).writer.ring = b.writer.ring := by
  induction l generalizing b with
  | nil => rfl
  | cons a l ih => rw [List.foldl_cons, ih, Block.judgeAbsent, Block.giveResult_ring]

theorem Block.quiet_askRewrite : b.Quiet b.askRewrite := by apply Block.Quiet.of_parts <;> simp

theorem Block.quiet_writeProducerWord : b.Quiet b.writeProducerWord := by apply Block.Quiet.of_parts <;> simp

theorem Block.quiet_logError (e : LoggedError) : b.Quiet (b.logError e) := by
  have ring : (b.logError e).writer.ring = b.writer.ring := by
    simp only [Block.logError]; split <;> simp
  apply Block.Quiet.of_parts <;> simp [ring]

theorem Block.quiet_triggerHold : b.Quiet b.triggerHold := by apply Block.Quiet.of_parts <;> simp

theorem Block.quiet_closeFrame (kind : CloseKind) : b.Quiet (b.closeFrame kind) := by
  refine ⟨⟨by simp, by simp, by simp⟩, by simp, ?_⟩
  unfold Block.closeFrame
  split
  · next h => exact .inr ⟨h, kind, by simp⟩
  · exact .inl rfl

theorem Block.quiet_setPort (i : PortId) (p : Port) : b.Quiet (b.setPort i p) := by
  apply Block.Quiet.of_parts <;> simp

/-- Containment of a port closes the frame at most (R39, R134). -/
theorem Block.quiet_containPort (i : PortId) : b.Quiet (b.containPort i) := by
  have hp := b.quiet_setPort i (b.port i).contain
  unfold Block.containPort
  split
  · exact .refl b
  · cases i
    · have hc := hp.trans (Block.quiet_closeFrame _ .truncated)
      simp only
      split
      · exact (hc.trans (Block.quiet_triggerHold _)).trans (Block.quiet_askRewrite _)
      · exact hc.trans (Block.quiet_askRewrite _)
    · exact hp.trans (Block.quiet_askRewrite _)

/-- A report closes the frame at most (R127). -/
theorem Block.quiet_report (e : LoggedError) : b.Quiet (b.report e) := by
  unfold Block.report
  refine (b.quiet_logError e).trans ?_
  unfold Block.followReport
  split
  case' h_3 | h_4 | h_6 | h_7 => split
  all_goals first
    | exact Block.quiet_containPort _ _
    | exact Block.quiet_triggerHold _
    | exact .refl _

/-! ### Ports -/

theorem Block.quiet_writeRequest (i : PortId) (r : Request) : b.Quiet (b.writeRequest i r) := by
  have take : ∀ p, b.Quiet (b.setPort i p).nextStamp := fun p => by apply Block.Quiet.of_parts <;> simp
  unfold Block.writeRequest
  split_ifs
  · exact take _
  · exact (take _).trans (Block.quiet_report _ _)
  · exact .refl b

theorem Block.quiet_readRequest (i : PortId) (r : Request) : b.Quiet (b.readRequest i r) := by
  have take : ∀ p, b.Quiet (b.setPort i p).nextStamp := fun p => by apply Block.Quiet.of_parts <;> simp
  unfold Block.readRequest
  split_ifs
  · simp only [Block.takeRead]
    split <;> exact take _
  · exact (take _).trans (Block.quiet_report _ _)
  · exact .refl b

theorem Block.quiet_writeBeat (i : PortId) (x : WriteBeat) : b.Quiet (b.writeBeat i x) := by
  unfold Block.writeBeat
  split
  · exact .refl b
  · split
    · exact .refl b
    · exact b.quiet_setPort _ _
    · simp only [Block.bufferedBeat, Block.lastBeat]
      split
      · exact b.quiet_setPort _ _
      · split
        · exact (b.quiet_setPort _ _).trans (Block.quiet_report _ _)
        · exact b.quiet_setPort _ _

/-! ### The line -/

theorem Block.quiet_leadingEdge : b.Quiet b.leadingEdge := by
  simp only [Block.leadingEdge]
  split_ifs
  · exact .refl b
  · exact (Block.quiet_askRewrite _).after (.of_parts rfl rfl rfl rfl rfl)
  · exact (Block.quiet_askRewrite _).after ((Block.quiet_report _ _).after (.of_parts rfl rfl rfl rfl rfl))

theorem Block.quiet_edgeTo (high : Bool) : b.Quiet (b.edgeTo high) := by
  have settled : b.Quiet (b.settleEdge high) := .of_parts rfl rfl rfl rfl rfl
  unfold Block.edgeTo
  split_ifs
  · exact settled.trans (Block.quiet_leadingEdge _)
  · exact settled

theorem Block.quiet_edgeSample (high : Bool) : b.Quiet (b.edgeSample high) := by
  unfold Block.edgeSample
  split_ifs
  · exact .of_parts rfl rfl rfl rfl rfl
  · exact .of_parts rfl rfl rfl rfl rfl
  · exact b.quiet_edgeTo high

theorem Block.quiet_dueAction (x : Board) : b.Quiet (b.dueAction x) := by
  unfold Block.dueAction
  split
  · exact .of_parts rfl rfl rfl rfl rfl
  · simp only
    exact (Block.quiet_report _ _).after (.of_parts rfl rfl rfl rfl rfl)
  · apply Block.Quiet.of_parts <;> simp

theorem Block.quiet_dueBoards (n : Nat) : b.Quiet (Block.dueBoards n b) := by
  induction n generalizing b with
  | zero => exact .refl b
  | succ n ih =>
    unfold Block.dueBoards
    split
    · exact .refl b
    · next x rest _ =>
      split
      · have left : (b.dueAction x).Quiet { b.dueAction x with line := { (b.dueAction x).line with queue := rest } } :=
          .of_parts rfl rfl rfl rfl rfl
        exact (((b.quiet_dueAction x).trans left).trans (Block.quiet_askRewrite _)).trans (ih _)
      · exact .refl b

theorem Block.quiet_timeoutTest : b.Quiet b.timeoutTest := by
  simp only [Block.timeoutTest]
  split_ifs
  · exact (b.quiet_report _).trans (Block.quiet_closeFrame _ _)
  · exact .refl b

/-- The tests of a position change close the frame at most (R99). -/
theorem Block.quiet_positionChanged : b.Quiet b.positionChanged := by
  unfold Block.positionChanged
  exact (Block.quiet_timeoutTest _).after ((Block.quiet_dueBoards _ _).after (.of_parts rfl rfl rfl rfl rfl))

theorem Block.quiet_illegalSample (x : Bool × Bool) : b.Quiet (b.illegalSample x) := by
  unfold Block.illegalSample
  exact (Block.quiet_report _ _).after (.of_parts rfl rfl rfl rfl rfl)

theorem Block.quiet_encoderSample (x : Bool × Bool) : b.Quiet (b.encoderSample x) := by
  unfold Block.encoderSample
  split
  · exact .of_parts rfl rfl rfl rfl rfl
  · split
    · exact .refl b
    · split
      · unfold Block.legalStep
        exact (Block.quiet_positionChanged _).after (.of_parts rfl rfl rfl rfl rfl)
      · exact b.quiet_illegalSample x

theorem Block.quiet_illegalStep : b.Quiet b.illegalStep := by
  unfold Block.illegalStep
  split
  · exact b.quiet_illegalSample _
  · exact .refl b

theorem Block.quiet_elapse (n : Nat) : b.Quiet (b.elapse n) := .of_parts rfl rfl rfl rfl rfl

theorem Block.quiet_deadTimeEnd : b.Quiet b.deadTimeEnd := by
  unfold Block.deadTimeEnd
  split
  · exact .of_parts rfl rfl rfl rfl rfl
  · exact .refl b

/-! ### The record writer -/

theorem Block.quiet_applyConsumer (u : ConsumerUpdate) : b.Quiet (b.applyConsumer u) := by
  unfold Block.applyConsumer
  split
  · exact .refl b
  · split
    · exact .of_parts rfl rfl rfl rfl rfl
    · simp only
      exact (Block.quiet_report _ _).after (.of_parts rfl rfl rfl rfl rfl)

theorem Block.quiet_takeConsumer (u : ConsumerUpdate) : b.Quiet (b.takeConsumer u) := by
  unfold Block.takeConsumer
  split
  · exact .refl b
  · exact .of_parts rfl rfl rfl rfl rfl
  · exact b.quiet_applyConsumer u

theorem Block.quiet_endSlotWrite : b.Quiet b.endSlotWrite := by
  have held : ∀ c : Block, c.Quiet c.applyHeld := by
    intro c
    unfold Block.applyHeld
    split
    · exact (Block.quiet_applyConsumer _ _).after (.of_parts rfl rfl rfl rfl rfl)
    · exact .refl c
  exact .trans (held { b with writer := { b.writer with slotWrite := none } } |>.after (.of_parts rfl rfl rfl rfl rfl))
    (.of_parts rfl rfl rfl rfl rfl)

theorem Block.quiet_slotDone (n : Nat) : b.Quiet (b.slotDone n) := by
  unfold Block.slotDone
  split
  · exact (Block.quiet_endSlotWrite _).after ((Block.quiet_writeProducerWord _).after (.of_parts rfl rfl rfl rfl rfl))
  · exact .refl b

theorem Block.quiet_slotFailed (n : Nat) : b.Quiet (b.slotFailed n) := by
  unfold Block.slotFailed
  split
  · exact (Block.quiet_endSlotWrite _).after (.of_parts rfl rfl rfl rfl rfl)
  · exact .refl b

theorem Block.quiet_ringSlotWrite : b.Quiet b.ringSlotWrite := by
  unfold Block.ringSlotWrite
  split
  · exact .refl b
  · split_ifs
    · exact .refl b
    · exact .of_parts rfl rfl rfl rfl rfl
    · exact .of_parts rfl rfl rfl rfl rfl

end Sys2Proof.Machine
end

section
/-! SUPPORT. The open joint set keeps its order (R59, R62), and what the commands that handle a segment, a frame's end
or a load do to it, to the frame and to the banks. -/

namespace Sys2Proof.Machine

/-! ### The open joint set -/

/-- The records stand in ascending table index, below the admission pointer (R59, R62). -/
structure JointSet.Sound (j : JointSet) : Prop where
  ascending : (j.records.map (·.index)).Pairwise (· < ·)
  below : ∀ a ∈ j.records, a.index < j.pointer

/-- Records that leave, and a pointer that moves on, keep the order. -/
theorem JointSet.Sound.of_sublist {j k : JointSet} (h : j.Sound)
    (hr : (k.records.map (·.index)).Sublist (j.records.map (·.index))) (hp : j.pointer ≤ k.pointer) : k.Sound := by
  refine ⟨h.ascending.sublist hr, fun a ha => ?_⟩
  obtain ⟨c, hc, he⟩ := List.mem_map.1 (hr.subset (List.mem_map_of_mem (f := (·.index)) ha))
  have := h.below c hc
  omega

theorem JointSet.Sound.empty (n : Nat) : (⟨[], n⟩ : JointSet).Sound := ⟨by simp, by simp⟩

/-- A record that joins at the pointer keeps the order (R63). -/
theorem JointSet.Sound.joins {j : JointSet} (h : j.Sound) {a : Accumulator} (ha : a.index = j.pointer) :
    (⟨j.records ++ [a], j.pointer + 1⟩ : JointSet).Sound := by
  constructor
  · simp only [List.map_append, List.map_cons, List.map_nil, List.pairwise_append, List.pairwise_singleton, true_and]
    refine ⟨h.ascending, fun x hx y hy => ?_⟩
    obtain ⟨c, hc, rfl⟩ := List.mem_map.1 hx
    rw [List.mem_singleton.1 hy, ha]
    exact h.below c hc
  · intro x hx
    rcases List.mem_append.1 hx with hx | hx
    · exact Nat.lt_succ_of_lt (h.below x hx)
    · rw [List.mem_singleton.1 hx, ha]; exact Nat.lt_succ_self _

@[simp] theorem Accumulator.closeGapRow_index (a : Accumulator) : a.closeGapRow.index = a.index := by
  unfold Accumulator.closeGapRow; split <;> (try split) <;> rfl

@[simp] theorem Accumulator.noticeGap_index (l : Lane) (w : Int) (a : Accumulator) :
    (a.noticeGap l w).index = a.index := by
  unfold Accumulator.noticeGap; split <;> (try split) <;> (try split) <;> simp

@[simp] theorem Accumulator.accumulate_index (a : Accumulator) (r : Recipe) (g : Segment) :
    (a.accumulate r g).index = a.index := by
  simp only [Accumulator.accumulate]; split <;> rfl

@[simp] theorem Accumulator.markDamaged_index (a : Accumulator) (g : Segment) : (a.markDamaged g).index = a.index := by
  unfold Accumulator.markDamaged; split <;> rfl

@[simp] theorem Accumulator.markOrder_index (a : Accumulator) (g : Segment) : (a.markOrder g).index = a.index := by
  unfold Accumulator.markOrder; split <;> rfl

/-- Records changed in place keep the order. -/
theorem JointSet.Sound.map {j : JointSet} (h : j.Sound) {f : Accumulator → Accumulator}
    (hf : ∀ a, (f a).index = a.index) : ({ j with records := j.records.map f } : JointSet).Sound := by
  refine h.of_sublist ?_ le_rfl
  rw [List.map_map]
  have : ((fun a : Accumulator => a.index) ∘ f) = (·.index) := funext hf
  rw [this]

/-- Only some records stay, changed in place. -/
theorem JointSet.Sound.filter {j : JointSet} (h : j.Sound) (keep : Accumulator → Bool) :
    ({ j with records := j.records.filter keep } : JointSet).Sound :=
  h.of_sublist (List.filter_sublist.map _) le_rfl

/-! ### One segment (R33) -/

variable {b : Block}

@[simp] theorem Block.admitOne_ring (b : Block) (p : Program) (j : Joint) :
    (b.admitOne p j).writer.ring = b.writer.ring := by
  simp only [Block.admitOne]; split <;> simp [Block.judgeAbsent]

theorem Block.admitOne_joints (h : b.joints.Sound) (p : Program) (j : Joint) : (b.admitOne p j).joints.Sound := by
  simp only [Block.admitOne]
  split
  · exact h.joins rfl
  · simp only [Block.judgeAbsent_frame]
    exact h.of_sublist (List.Sublist.refl _) (Nat.le_succ _)

theorem Block.admitRow_ring (b : Block) (p : Program) (row : Nat) :
    (b.admitRow p row).writer.ring = b.writer.ring := by
  unfold Block.admitRow
  induction p.joints.drop b.joints.pointer generalizing b with
  | nil => rfl
  | cons j l ih =>
    unfold Block.admitJoints
    split
    · rw [ih, Block.admitOne_ring]
    · rfl

theorem Block.admitRow_joints (h : b.joints.Sound) (p : Program) (row : Nat) : (b.admitRow p row).joints.Sound := by
  unfold Block.admitRow
  induction p.joints.drop b.joints.pointer generalizing b with
  | nil => exact h
  | cons j l ih =>
    unfold Block.admitJoints
    split
    · exact ih (Block.admitOne_joints h p j)
    · exact h

@[simp] theorem Block.notice_ring (b : Block) (p : Program) (k : Nat) : (b.notice p k).writer.ring = b.writer.ring :=
  Block.judgeEach_ring _ p (fun _ => .completed) _

theorem Block.notice_joints (h : b.joints.Sound) (p : Program) (k : Nat) : (b.notice p k).joints.Sound := by
  have hj := fun c l => (Block.judgeEach_frame c p (fun _ => .completed) l).2.2.2.2.2.2.2.1
  simp only [Block.notice, hj]
  exact (h.map fun a => Accumulator.noticeGap_index _ _ a).filter _

/-- What handling a segment does to the frame: the lane's progress, and a close at most. -/
structure Block.Handles (b t : Block) : Prop extends b.Steady t where
  joints : b.joints.Sound → t.joints.Sound
  tracker : ∃ progress, ({ b.tracker with progress := progress } : FrameTracker).ClosesTo t.tracker

theorem Block.enterRow_ring (b : Block) (p : Program) (k : Nat) (q : LaneProgress) (g : Segment) :
    (b.enterRow p k q g).writer.ring = b.writer.ring := by
  unfold Block.enterRow
  split <;> simp [Block.admitRow_ring]

theorem Block.enterRow_joints (h : b.joints.Sound) (p : Program) (k : Nat) (q : LaneProgress) (g : Segment) :
    (b.enterRow p k q g).joints.Sound := by
  unfold Block.enterRow
  split
  · exact Block.notice_joints (Block.admitRow_joints (b := b.setProgress _ _) h p g.row) p k
  · exact Block.admitRow_joints h p g.row

theorem Block.enterRow_tracker (b : Block) (p : Program) (k : Nat) (q : LaneProgress) (g : Segment) :
    ∃ progress, (b.enterRow p k q g).tracker = { b.tracker with progress := progress } := by
  unfold Block.enterRow
  split
  · exact ⟨_, by simp; rfl⟩
  · exact ⟨b.tracker.progress, by simp⟩

theorem Block.classifySegment_joints (h : b.joints.Sound) (p : Program) (u : Burst) (g : Segment) :
    (b.classifySegment p u g).joints.Sound := by
  unfold Block.classifySegment
  split
  · exact h.map fun a => a.markDamaged_index g
  · exact h.map fun a => a.accumulate_index _ g

theorem Block.leaveSegment_handles (b : Block) (p : Program) (k : Nat) (q : LaneProgress) (g : Segment) :
    b.Handles (b.leaveSegment p k q g) := by
  unfold Block.leaveSegment
  simp only
  split
  · have hq : ∀ c : Block, c.Quiet (c.normalTest p) := by
      intro c
      unfold Block.normalTest
      split
      · exact c.quiet_closeFrame .normal
      · exact .refl c
    obtain ⟨⟨-, hr, -⟩, hj, ht⟩ := hq ((b.setProgress k (q.accept (p.header.lane k) g)).notice p k)
    simp only [Block.notice_frame] at ht
    refine ⟨⟨by simp, by rw [hr]; simp, by simp⟩, fun h => ?_, ⟨_, ht⟩⟩
    rw [hj]
    exact Block.notice_joints (b := b.setProgress _ _) h p k
  · exact ⟨⟨rfl, rfl, rfl⟩, id, ⟨_, .inl rfl⟩⟩

/-- Handling a segment keeps the order of the open joint set, and closes the frame at most. -/
theorem Block.handleSegment_handles (b : Block) (p : Program) (u : Burst) (g : Segment) :
    b.Handles (b.handleSegment p u g) := by
  unfold Block.handleSegment
  split
  · exact ⟨⟨rfl, rfl, rfl⟩, id, ⟨b.tracker.progress, .inl rfl⟩⟩
  · next q _ =>
    split
    · obtain ⟨⟨hs, hr, hw⟩, hj, ht⟩ := (b.mapRecords (·.markOrder g)).quiet_report
        ⟨.cOrder, .minor, u.master, u.addr, 0⟩
      refine ⟨⟨hs, hr, hw⟩, fun h => ?_, ⟨b.tracker.progress, ht⟩⟩
      unfold Block.orderBreak
      rw [hj]
      exact h.map fun a => a.markOrder_index g
    · simp only
      obtain ⟨⟨-, hr, -⟩, hj, progress, ht⟩ := ((b.enterRow p u.lane q g).classifySegment p u g).leaveSegment_handles p
        u.lane (if q.row < g.row then .advance (p.header.lane u.lane) g.row else q) g
      obtain ⟨entered, he⟩ := b.enterRow_tracker p u.lane q g
      refine ⟨⟨by simp, ?_, by simp⟩, fun h => ?_, ⟨progress, ?_⟩⟩
      · simpa [Block.enterRow_ring] using hr
      · exact hj (Block.classifySegment_joints (Block.enterRow_joints h p u.lane q g) p u g)
      · simpa [he] using ht

/-! ### What a command can do -/

/-- A change that a command other than FULL_RESET makes at once: a quiet one; a move of the store alone; a ring
configured with good arguments; a burst taken outside IDLE or a segment of one handled; the end of CLOSING; the rest
of an inspection reset; or the opening of a frame. -/
inductive Block.Change (b t : Block) : Prop
  | quiet (h : b.Quiet t)
  | store (h : b.StoreMove t.store) (ring : t.writer.ring = b.writer.ring)
      (window : t.decoder.windowBase = b.decoder.windowBase) (joints : t.joints = b.joints)
      (tracker : t.tracker = b.tracker)
  | ring (base size irq : Nat) (h : b.ringArgumentsOk base size irq = true)
      (ring : t.writer.ring = some ⟨BitVec.ofNat 40 base, size, irq == 1⟩) (store : t.store = b.store)
      (window : t.decoder.windowBase = b.decoder.windowBase) (joints : t.joints = b.joints)
      (tracker : t.tracker = b.tracker)
  | frame (h : b.tracker.state = .idle → b.tracker.burst ≠ none) (steady : b.Steady t)
      (joints : b.joints.Sound → t.joints.Sound)
      (tracker : ∃ burst progress,
        ({ b.tracker with burst := burst, progress := progress } : FrameTracker).ClosesTo t.tracker)
  | idle (h : b.tracker.state = .closing) (burst : b.tracker.burst = none) (steady : b.Steady t)
      (joints : b.store.activeProgram.isSome → t.joints.records = [])
      (tracker : t.tracker = { b.tracker with state := .idle, closeKind := none })
  | reset (steady : b.Steady t) (joints : t.joints = ⟨[], 0⟩) (tracker : t.tracker = b.tracker.inspectionReset)

/-- Changes, one after another. -/
def Block.Changes : Block → Block → Prop := Relation.ReflTransGen Block.Change

theorem Block.Quiet.changes {t : Block} (h : b.Quiet t) : b.Changes t := .single (.quiet h)

theorem Block.Changes.after {b c t : Block} (h' : c.Changes t) (h : b.Changes c) : b.Changes t := h.trans h'

theorem Block.Change.changes {t : Block} (h : b.Change t) : b.Changes t := .single h

/-- The opening of a frame: from IDLE with a candidate; the banks are exchanged, the admission pointer is 0 (R35). -/
structure Block.Opens (b t : Block) : Prop where
  idle : b.tracker.state = .idle
  candidate : b.store.candidate.isSome
  store : t.store = b.store.exchange
  ring : t.writer.ring = b.writer.ring
  window : t.decoder.windowBase = b.decoder.windowBase
  joints : t.joints = { b.joints with pointer := 0 }
  state : t.tracker.state = .opened
  kind : t.tracker.closeKind = none

/-! ### The commands of the frame tracker -/

theorem Block.exchangeBanks_store (b : Block) : b.exchangeBanks.store = b.store.exchange := by
  unfold Block.exchangeBanks
  split
  · simp
  · next h => rw [ProgramStore.exchange_none h]

/-- Inspect is answered in an OPEN frame (R25). -/
theorem Block.offerAnswer_inspect {b : Block} {w : BufferedWrite} {p : Program} {lane : Nat}
    (h : b.offerAnswer w = .inspect p lane) : b.tracker.state = .opened := by
  unfold Block.offerAnswer at h
  split at h
  · split at h <;> simp at h
  · assumption
  · split at h <;> simp at h

/-- A frame is opened from IDLE, by a write inspectable against the candidate (R24, R25, R35). -/
theorem Block.offerAnswer_openFrame {b : Block} {w : BufferedWrite} {p : Program} {lane : Nat}
    (h : b.offerAnswer w = .openFrame p lane) :
    b.tracker.state = .idle ∧ inspectableBy b.store.candidate w = some (p, lane) := by
  unfold Block.offerAnswer at h
  split at h
  · next hs =>
    refine ⟨hs, ?_⟩
    split at h
    · next hi => simp at h; rw [hi, h.1, h.2]
    · simp at h
  · split at h <;> simp at h
  · split at h <;> simp at h

/-- BURST_OFFER opens a frame from IDLE, or takes a burst in an OPEN one, or changes the capture port alone. -/
theorem Block.burstOffer_changes (b : Block) : b.Change b.burstOffer ∨ b.Opens b.burstOffer := by
  unfold Block.burstOffer
  split
  · split
    · split
      · exact .inl (.quiet (.of_parts rfl rfl rfl rfl rfl))
      · exact .inl (.quiet (.of_parts rfl rfl rfl rfl rfl))
      · next ha =>
        exact .inl (.frame (by simp [Block.offerAnswer_inspect ha]) ⟨rfl, rfl, rfl⟩ id ⟨_, _, .inl rfl⟩)
      · next ha =>
        obtain ⟨hs, hi⟩ := Block.offerAnswer_openFrame ha
        obtain ⟨q, hq, -⟩ := Option.bind_eq_some_iff.1 hi
        refine .inr ⟨hs, by simp [hq], ?_, by simp, by simp, ?_, ?_, ?_⟩ <;>
          simp [Block.openFrame, Block.takeBurst, Block.exchangeBanks_store]
    · exact .inl (.quiet (.refl b))
  · exact .inl (.quiet (.refl b))

/-- The end of the load in progress is a move of the store. -/
theorem Block.endLoad_change (b : Block) (x : LoadOutcome) (n : Nat) : b.Change (b.endLoad x n) := by
  have hs : (b.endLoad x n).store = b.store.endLoad x n := by
    unfold Block.endLoad
    split
    · next h => simp [ProgramStore.endLoad, h]
    · simp
  exact .store (hs ▸ .stop x n) (by simp) (by simp) (by simp) (by simp)

/-- An inspection reset: the load ends, then the frame, the joints and the line are cleared (R44, R193). -/
theorem Block.takeInspectionReset_changes (b : Block) : b.Changes b.takeInspectionReset := by
  refine .trans (b.endLoad_change .aborted 0).changes (.single (.reset ⟨?_, ?_, ?_⟩ ?_ ?_)) <;>
    simp [Block.takeInspectionReset]

/-- SEGMENT (R33). -/
theorem Block.segment_changes (b : Block) : b.Changes b.segment := by
  unfold Block.segment
  split
  · next u p hu _ =>
    have report : b.Quiet (b.reportLaneRange u) := by
      unfold Block.reportLaneRange
      split
      · exact b.quiet_report _
      · exact .refl b
    have burst : (b.reportLaneRange u).tracker.burst ≠ none := by
      rcases report.tracker with ht | ⟨-, k, ht⟩ <;> simp [ht, hu]
    have reset : ∀ c : Block, c.Changes c.resetAfterSegment := by
      intro c
      unfold Block.resetAfterSegment
      split
      · exact c.takeInspectionReset_changes
      · exact .refl
    simp only
    split
    · exact (reset _).after (.after 
        (.single (.frame (fun _ => burst) ⟨rfl, rfl, rfl⟩ id ⟨_, _, .inl rfl⟩)) report.changes)
    · next seg rest _ =>
      obtain ⟨⟨hs, hr, hw⟩, hj, progress, ht⟩ := (b.reportLaneRange u).handleSegment_handles p u seg
      refine (reset _).after (.after (.single (.frame (fun _ => burst) ⟨hs, hr, hw⟩ hj ?_)) report.changes)
      refine ⟨if rest.isEmpty then none else some { u with outOfLane := false, segments := rest }, progress, ?_⟩
      rcases ht with ht | ⟨ho, k, ht⟩
      · exact .inl (by simp only [Block.setSegments, ht])
      · exact .inr ⟨ho, k, by simp only [Block.setSegments, ht]⟩
  · exact .refl

theorem Block.closeVerdicts_ring (b : Block) : b.closeVerdicts.writer.ring = b.writer.ring := by
  unfold Block.closeVerdicts
  split
  · next p _ =>
    have h := fun c l => Block.judgeEach_ring c p
      (fun a => if a.complete b.tracker.progress then .completed else .forced) l
    simp only [Block.handOverUnreached, Block.judgeAbsents_ring, Block.handOverAll, h]
  · rfl

theorem Block.closeVerdicts_records (b : Block) (h : b.store.activeProgram.isSome) :
    b.closeVerdicts.joints.records = [] := by
  obtain ⟨p, hp⟩ := Option.isSome_iff_exists.1 h
  have hj := fun c l => (Block.judgeEach_frame c p
    (fun a => if a.complete b.tracker.progress then .completed else .forced) l).2.2.2.2.2.2.2.1
  simp only [Block.closeVerdicts, hp, Block.handOverUnreached, Block.judgeAbsents_frame, Block.handOverAll, hj]

theorem Block.finishBoard_ring (b : Block) : b.finishBoard.writer.ring = b.writer.ring := by
  unfold Block.finishBoard
  split
  · simp
  · split <;> simp

/-- CLOSING (R41): the frame returns to IDLE with no record left, and a reset that waited is taken. -/
theorem Block.closingWork_changes (b : Block) : b.Changes b.closingWork := by
  unfold Block.closingWork
  split
  · next hs hb =>
    refine .trans (.single (.idle hs hb (t := b.closeVerdicts.finishBoard.returnToIdle)
      ⟨by simp, ?_, by simp⟩ ?_ ?_)) ?_
    · simp [Block.finishBoard_ring, Block.closeVerdicts_ring]
    · intro h; simpa using b.closeVerdicts_records h
    · simp [Block.returnToIdle]
    · unfold Block.resetAfterClosing
      split
      · exact Block.takeInspectionReset_changes _
      · exact .refl
  · exact .refl

end Sys2Proof.Machine
end

section
/-! SUPPORT. The changes that every command makes to the program store, the frame, the joints and the ring. -/

namespace Sys2Proof.Machine

/-! ### Loads -/

/-- A load whose next read is due is the load in progress. -/
theorem Block.load?_of_dueLoad {b : Block} {l : Load} (h : b.dueLoad = some l) : b.store.load? = some l := by
  unfold Block.dueLoad at h
  split at h
  · next hl => split at h <;> simp_all
  · simp at h

/-- The load that a fetch read belongs to is the load in progress. -/
theorem Block.load?_of_loadOf {b : Block} {n : Nat} {l : Load} {read : FetchRead} (h : b.loadOf n = some (l, read)) :
    b.store.load? = some l := by
  unfold Block.loadOf at h
  split at h
  · next hl =>
    split at h
    · split at h <;> simp_all
    · simp at h
  · simp at h

theorem Block.handFetch_change {b : Block} {l : Load} (h : b.dueLoad = some l) : b.Change (b.handFetch l) :=
  .store (.goOn l _ (Block.load?_of_dueLoad h) fun hs => hs.of_items rfl rfl rfl) rfl rfl rfl rfl

theorem Block.fetchReadIssue_changes (b : Block) : b.Changes b.fetchReadIssue := by
  unfold Block.fetchReadIssue
  split
  · exact .refl
  · next h =>
    split
    · exact .refl
    · split
      · exact (Block.handFetch_change h).changes
      · exact Block.Quiet.changes (.of_parts rfl rfl rfl rfl rfl)

theorem Block.handWaiter_changes (b : Block) (w : Waiter) : b.Changes (b.handWaiter w) := by
  unfold Block.handWaiter
  split
  · split
    · next h => exact (Block.handFetch_change h).changes
    · exact .refl
  · split
    · exact Block.Quiet.changes (.of_parts rfl rfl rfl rfl rfl)
    · exact .refl
  · exact Block.Quiet.changes (.of_parts rfl rfl rfl rfl rfl)
  · exact Block.Quiet.changes (.of_parts rfl rfl rfl rfl rfl)

theorem Block.internalHandover_changes (b : Block) : b.Changes b.internalHandover := by
  have waiters : ∀ (c : Block) l, c.Changes { c with master := { c.master with waiters := l } } :=
    fun c l => Block.Quiet.changes (.of_parts rfl rfl rfl rfl rfl)
  unfold Block.internalHandover
  induction b.master.waiters generalizing b with
  | nil => exact waiters b []
  | cons w rest ih =>
    unfold Block.drainWaiters
    simp only
    split
    · exact (ih _).after ((Block.handWaiter_changes _ w).after (waiters b rest))
    · exact waiters b (w :: rest)

/-- The data of a fetch read: what it validates to is sound, if the load was (R11, R13, R17). -/
theorem Block.fetchDone_changes (b : Block) (n : Nat) (data : List Beat) : b.Changes (b.fetchDone n data) := by
  unfold Block.fetchDone
  split
  · next l read h =>
    have hl := Block.load?_of_loadOf h
    have sound : l.Sound → (Load.validate
        { l with received := l.received ++ data.flatMap beatBytes, outstanding := none }).Sound :=
      fun hs => Load.validate_sound (hs.of_items rfl rfl rfl)
    rcases hv : Load.validate { l with received := l.received ++ data.flatMap beatBytes, outstanding := none } with
      more | ⟨outcome, index⟩ | p
    · rw [hv] at sound
      exact Block.Change.changes (.store (.goOn l more hl sound) rfl rfl rfl rfl)
    · exact (b.endLoad_change outcome index).changes
    · rw [hv] at sound
      simp only [Block.takeValidation, Block.completeLoad]
      split
      · exact (b.endLoad_change _ _).changes
      · next hw =>
        refine Block.Change.changes (.store ?_ (by simp) (by simp) (by simp) (by simp))
        simpa using Block.StoreMove.finish l p hl sound (by simpa using hw)
  · exact .refl

theorem Block.fetchFailed_changes (b : Block) (n : Nat) : b.Changes (b.fetchFailed n) := by
  unfold Block.fetchFailed
  split
  · exact (b.endLoad_change _ _).changes
  · exact .refl

/-! ### Requests at memory -/

theorem Block.ownerDone_changes (b : Block) (o : EntryOwner) (data : List Beat) : b.Changes (b.ownerDone o data) := by
  unfold Block.ownerDone
  split
  · exact b.fetchDone_changes _ data
  · exact (b.quiet_slotDone _).changes
  · exact .refl

theorem Block.ownerFails_changes (b : Block) (o : EntryOwner) : b.Changes (b.ownerFails o) := by
  unfold Block.ownerFails
  split
  · exact b.fetchFailed_changes _
  · exact (b.quiet_slotFailed _).changes
  · exact .refl

theorem Block.quiet_answerPort (b : Block) (i : PortId) (n : Nat) (r : Response) (d : List Beat) :
    b.Quiet (b.answerPort i n r d) := b.quiet_setPort i _

theorem Block.memoryResponse_changes (b : Block) (tag : Nat) (r : Response) (data : List Beat) :
    b.Changes (b.memoryResponse tag r data) := by
  unfold Block.memoryResponse
  split
  · exact .refl
  · next e _ =>
    refine .after ?_ (Block.Quiet.changes (.of_parts rfl rfl rfl rfl rfl : b.Quiet (b.retire tag)))
    unfold Block.route
    split
    · exact (Block.quiet_answerPort _ _ _ _ _).changes
    · exact ((Block.quiet_report _ _).after (Block.quiet_answerPort _ _ _ _ _)).changes
    · exact Block.ownerDone_changes _ _ _
    · exact (Block.ownerFails_changes _ _).after (Block.quiet_report _ _).changes

theorem Block.responseTimerExpiry_changes (b : Block) (tag : Nat) : b.Changes (b.responseTimerExpiry tag) := by
  unfold Block.responseTimerExpiry
  split
  · exact .refl
  · next e _ =>
    refine .after ?_ (Block.Quiet.changes (.of_parts rfl rfl rfl rfl rfl : b.Quiet ((b.elapse e.timer).retire tag)))
    unfold Block.timeOut
    simp only
    split
    · exact ((Block.quiet_answerPort _ _ _ _ _).after (Block.quiet_report _ _)).changes
    · exact (Block.ownerFails_changes _ _).after (Block.quiet_report _ _).changes

/-! ### The commands of the mailbox -/

theorem Block.loadProgram_changes (b : Block) : b.Changes b.loadProgram.1 := by
  unfold Block.loadProgram
  simp only
  split
  · exact .refl
  · next h =>
    split
    · exact .refl
    · refine Block.Change.changes (.store ?_ (by simp) (by simp) (by simp) (by simp))
      simpa using Block.StoreMove.start _ h

theorem Block.abortLoad_changes (b : Block) : b.Changes b.abortLoad.1 := by
  unfold Block.abortLoad
  split
  · exact (b.endLoad_change _ _).changes
  · exact .refl

theorem Block.setRing_changes (b : Block) : b.Changes b.setRing.1 := by
  unfold Block.setRing
  simp only
  split
  · exact .refl
  · next h =>
    split
    · exact .refl
    · exact Block.Change.changes (.ring _ _ _ (by simpa using h) rfl rfl rfl rfl rfl)

theorem Block.quiet_setLine (b : Block) : b.Quiet b.setLine.1 := by
  unfold Block.setLine
  split
  · exact .refl b
  · split
    · exact .refl b
    · split
      · exact .refl b
      · unfold Block.setGateMode
        split
        · exact (Block.quiet_askRewrite _).after (.of_parts rfl rfl rfl rfl rfl)
        · exact (Block.quiet_askRewrite _).after (.of_parts rfl rfl rfl rfl rfl)
        · exact .of_parts rfl rfl rfl rfl rfl

theorem Block.quiet_setPortPolicy (b : Block) : b.Quiet b.setPortPolicy.1 := by
  unfold Block.setPortPolicy
  simp only
  split
  · split
    · exact b.quiet_setPort _ _
    · exact (b.quiet_setPort _ _).trans (.of_parts rfl rfl rfl rfl rfl)
  · exact .refl b

theorem Block.quiet_clearLog (b : Block) : b.Quiet b.clearLog.1 := by
  unfold Block.clearLog
  split
  · exact .of_parts rfl rfl rfl rfl rfl
  · exact .refl b

theorem Block.quiet_resumePort (b : Block) : b.Quiet b.resumePort.1 := by
  unfold Block.resumePort
  split
  · exact .refl b
  · split
    · exact .refl b
    · split
      · exact .refl b
      · exact (Block.quiet_askRewrite _).after (b.quiet_setPort _ _)

theorem Block.quiet_releaseGate (b : Block) : b.Quiet b.releaseGate.1 := by
  unfold Block.releaseGate
  split
  · exact (Block.quiet_askRewrite _).after (.of_parts rfl rfl rfl rfl rfl)
  · exact .refl b

theorem Block.inspectionReset_changes (b : Block) (inHand : Bool) : b.Changes (b.inspectionReset inHand).1 := by
  unfold Block.inspectionReset
  split
  · exact .refl
  · split
    · exact Block.Quiet.changes (.of_parts rfl rfl rfl rfl rfl)
    · exact b.takeInspectionReset_changes

theorem Block.decideCommand_changes (b : Block) (kind : Nat) (inHand : Bool) :
    b.Changes (b.decideCommand kind inHand).1 := by
  unfold Block.decideCommand
  split
  · exact b.loadProgram_changes
  · exact b.abortLoad_changes
  · exact b.setRing_changes
  · exact b.quiet_setLine.changes
  · exact b.quiet_setPortPolicy.changes
  · exact b.quiet_clearLog.changes
  · exact b.quiet_resumePort.changes
  · exact b.quiet_releaseGate.changes
  · exact b.inspectionReset_changes inHand
  · exact .refl

theorem Block.quiet_recordCommand (b : Block) (kind : Nat) (o : CommandOutcome) : b.Quiet (b.recordCommand kind o) := by
  unfold Block.recordCommand
  exact (Block.quiet_askRewrite _).after (.of_parts rfl rfl rfl rfl rfl)

theorem Block.takeCommand_changes (b : Block) (inHand : Bool) : b.Changes (b.takeCommand inHand) := by
  unfold Block.takeCommand
  exact (Block.quiet_recordCommand _ _ _).changes.after (b.decideCommand_changes _ inHand)

/-- What the mailbox decoder makes of a copied write (R188). -/
theorem Block.decodeCopy_changes (b : Block) (c : MailboxCopy) (inHand : Bool) : b.Changes (b.decodeCopy c inHand) := by
  have merged : b.Quiet (b.mergeCopy c) := by apply Block.Quiet.of_parts <;> simp only [Block.mergeCopy]
  have consumed : b.Quiet (if c.enablesWord then
      (b.mergeCopy c).takeConsumer ⟨(b.mergeCopy c).decoder.consumerValue, c.master, c.addr⟩ else b.mergeCopy c) := by
    split
    · exact (Block.quiet_takeConsumer _ _).after merged
    · exact merged
  simp only [Block.decodeCopy]
  generalize (if c.enablesWord then
      (b.mergeCopy c).takeConsumer ⟨(b.mergeCopy c).decoder.consumerValue, c.master, c.addr⟩ else b.mergeCopy c) = d
      at consumed ⊢
  split
  · exact (Block.takeCommand_changes _ inHand).after consumed.changes
  · exact consumed.changes

theorem Block.commandWrite_changes (b : Block) (kind : Nat) (fields : List SlotField) (inHand : Bool) :
    b.Changes (b.commandWrite kind fields inHand) := b.decodeCopy_changes _ inHand

theorem Block.quiet_forwardWrite (b : Block) (i : PortId) (w : BufferedWrite) (tag : Nat) :
    b.Quiet (b.forwardWrite i w tag) := (b.quiet_setPort i _).trans (.of_parts rfl rfl rfl rfl rfl)

theorem Block.quiet_forwardRead (b : Block) (i : PortId) (r : ListedRead) (tag : Nat) :
    b.Quiet (b.forwardRead i r tag) := (b.quiet_setPort i _).trans (.of_parts rfl rfl rfl rfl rfl)

theorem Block.quiet_forwardInternal (b : Block) (r : InternalRequest) (tag : Nat) :
    b.Quiet (b.forwardInternal r tag) := by
  apply Block.Quiet.of_parts <;> simp [Block.forwardInternal]

theorem Block.grant_changes (b : Block) (x : Presented) (tag : Nat) (inHand : Bool) :
    b.Changes (b.grant x tag inHand) := by
  unfold Block.grant
  split
  · next i w =>
    refine .after ?_ (b.quiet_forwardWrite i w tag).changes
    unfold Block.afterWrite
    split
    · split
      · exact (Block.quiet_report _ _).changes
      · split
        · exact .refl
        · exact Block.decodeCopy_changes _ _ _
    · exact .refl
  · exact (b.quiet_forwardRead _ _ tag).changes
  · exact (b.quiet_forwardInternal _ tag).changes

theorem Block.arbiterGrant_changes (b : Block) (pick : Nat) (inHand : Bool) :
    b.Changes (b.arbiterGrant pick inHand) := by
  unfold Block.arbiterGrant
  split
  · exact b.grant_changes _ _ inHand
  · exact .refl

/-! ### Every command -/

/-- What a command other than FULL_RESET can do: one change after another, or BURST_OFFER opens a frame. -/
theorem exec_changes {c : Instr} {s t : State} (h : exec c s = .next t)
    (hc : ∀ kind straps contain, c ≠ .fullReset kind straps contain) :
    s.block.Changes t.block ∨ s.block.Opens t.block := by
  have of_onBlock : ∀ f : Block → Block, s.onBlock f = .next t → s.block.Changes (f s.block) →
      s.block.Changes t.block ∨ s.block.Opens t.block := by
    intro f hf hch
    cases hf
    exact .inl hch
  have command : ∀ kind fields inHand, (s.onBlock fun b => b.commandWrite kind fields inHand) = .next t →
      s.block.Changes t.block ∨ s.block.Opens t.block :=
    fun kind fields inHand hf => of_onBlock _ hf (s.block.commandWrite_changes kind fields inHand)
  cases c with
  | fullReset kind straps contain => exact absurd rfl (hc kind straps contain)
  | burstOffer =>
    cases h
    exact s.block.burstOffer_changes.imp_left Block.Change.changes
  | writeRequest i r => exact of_onBlock (·.writeRequest i r) h (s.block.quiet_writeRequest i r).changes
  | readRequest i r => exact of_onBlock (·.readRequest i r) h (s.block.quiet_readRequest i r).changes
  | writeBeat i x => exact of_onBlock (·.writeBeat i x) h (s.block.quiet_writeBeat i x).changes
  | segment => exact of_onBlock Block.segment h s.block.segment_changes
  | closing => exact of_onBlock Block.closingWork h s.block.closingWork_changes
  | encoderStep x y => exact of_onBlock (·.encoderSample (x, y)) h (s.block.quiet_encoderSample (x, y)).changes
  | illegalStep => exact of_onBlock Block.illegalStep h s.block.quiet_illegalStep.changes
  | boardEdgeTrailing =>
    refine of_onBlock Block.boardEdgeTrailing h ?_
    unfold Block.boardEdgeTrailing
    split
    · exact (s.block.quiet_edgeTo _).changes
    · exact .refl
  | boardEdgeLeading =>
    refine of_onBlock Block.boardEdgeLeading h ?_
    unfold Block.boardEdgeLeading
    split
    · exact .refl
    · exact (s.block.quiet_edgeTo _).changes
  | boardEdgeSample x => exact of_onBlock (·.edgeSample x) h (s.block.quiet_edgeSample x).changes
  | deadTimeEnd => exact of_onBlock Block.deadTimeEnd h s.block.quiet_deadTimeEnd.changes
  | arbiterGrant pick inHand =>
    exact of_onBlock (·.arbiterGrant pick inHand) h (s.block.arbiterGrant_changes pick inHand)
  | mailboxShadowWrite bytes => exact of_onBlock (·.decodeCopy _ _) h (s.block.decodeCopy_changes _ _)
  | memoryResponse tag r data =>
    exact of_onBlock (·.memoryResponse tag r data) h (s.block.memoryResponse_changes tag r data)
  | responseTimerExpiry tag =>
    exact of_onBlock (·.responseTimerExpiry tag) h (s.block.responseTimerExpiry_changes tag)
  | fetchReadIssue => exact of_onBlock Block.fetchReadIssue h s.block.fetchReadIssue_changes
  | ringSlotWrite => exact of_onBlock Block.ringSlotWrite h s.block.quiet_ringSlotWrite.changes
  | internalHandover => exact of_onBlock Block.internalHandover h s.block.internalHandover_changes
  | consumerUpdate m a bytes => exact of_onBlock (·.decodeCopy _ _) h (s.block.decodeCopy_changes _ _)
  | loadProgram a => exact command _ _ _ h
  | abortLoad => exact command _ _ _ h
  | setRing a n i => exact command _ _ _ h
  | setLine a => exact command _ _ _ h
  | setPortPolicy i p f l => exact command _ _ _ h
  | clearLog n => exact command _ _ _ h
  | resumePort n => exact command _ _ _ h
  | releaseGate => exact command _ _ _ h
  | inspectionReset inHand => exact command _ _ _ h
  | unknownKind k => exact command _ _ _ h

/-- What a step can do: a full reset, the changes of another command or of a tick, or the opening of a frame. -/
theorem step_changes {s t : State} (h : step s = .next t) :
    (∃ kind straps contain, t.block = s.block.fullReset kind straps contain)
      ∨ s.block.Changes t.block ∨ s.block.Opens t.block := by
  unfold step at h
  split at h
  · cases h
    exact .inr (.inl (s.block.quiet_elapse 1).changes)
  · next c rest _ =>
    by_cases hc : ∃ kind straps contain, c = .fullReset kind straps contain
    · obtain ⟨kind, straps, contain, rfl⟩ := hc
      cases h
      exact .inl ⟨kind, straps, contain, rfl⟩
    · exact .inr (exec_changes (s := { s with pending := rest }) h fun k x y he => hc ⟨k, x, y, he⟩)

/-- What holds after a full reset, and is kept by each change and by the opening of a frame, is kept by every step. -/
theorem step_keeps {P : Block → Prop} (reset : ∀ b kind straps contain, P (Block.fullReset b kind straps contain))
    (change : ∀ {b t : Block}, P b → b.Change t → P t) (opens : ∀ {b t : Block}, P b → b.Opens t → P t)
    {s t : State} (hs : P s.block) (h : step s = .next t) : P t.block := by
  rcases step_changes h with ⟨kind, straps, contain, ht⟩ | hch | ho
  · exact ht ▸ reset _ kind straps contain
  · generalize t.block = c at hch
    induction hch with
    | refl => exact hs
    | tail _ hc ih => exact change ih hc
  · exact opens hs ho

end Sys2Proof.Machine
end

section
/-! SUPPORT. The frame, the usable programs and the ACTIVE program over every command (O55, O58, O49). -/

namespace Sys2Proof.Machine

/-! ### The frame (O55) -/

/-- A close leaves no frame IDLE that was not, keeps the burst, and a close kind stands exactly in CLOSING (R22,
R40). -/
theorem FrameTracker.ClosesTo.keeps {k t : FrameTracker} (h : k.ClosesTo t) :
    (t.state = .idle ↔ k.state = .idle) ∧ t.burst = k.burst
      ∧ ((k.state = .closing ↔ k.closeKind ≠ none) → (t.state = .closing ↔ t.closeKind ≠ none)) := by
  rcases h with rfl | ⟨ho, kind, rfl⟩
  · exact ⟨Iff.rfl, rfl, id⟩
  · exact ⟨by simp [ho], rfl, by simp⟩

theorem Block.FrameSound.jointsSound {b : Block} (h : b.FrameSound) : b.joints.Sound := ⟨h.ascending, h.below⟩

/-- The frame is sound after a change of the tracker and the joints under banks that keep the ACTIVE program. -/
theorem Block.FrameSound.of_tracker {b t : Block} (h : b.FrameSound) {k : FrameTracker} (hk : k.ClosesTo t.tracker)
    (hstate : k.state = b.tracker.state) (hkind : k.closeKind = b.tracker.closeKind)
    (hidle : b.tracker.state = .idle → k.burst = none ∧ t.joints.records = []) (hb : t.store.BanksSound)
    (ha : t.store.activeProgram = b.store.activeProgram) (hj : t.joints.Sound) : t.FrameSound := by
  obtain ⟨hi, hburst, hc⟩ := hk.keeps
  rw [hstate] at hi
  refine ⟨hb, fun hn => ?_, fun ht => ?_, hc (by rw [hstate, hkind]; exact h.kind), hj.ascending, hj.below⟩
  · rw [ha]; exact h.active (mt hi.2 hn)
  · rw [hburst]; exact hidle (hi.1 ht)

theorem Block.Change.frameSound {b t : Block} (h : b.FrameSound) (hc : b.Change t) : t.FrameSound := by
  cases hc with
  | quiet hq =>
    obtain ⟨⟨hs, -, -⟩, hj, ht⟩ := hq
    exact h.of_tracker ht rfl rfl (fun hi => by rw [hj]; exact h.idle hi) (hs ▸ h.banks) (by rw [hs])
      (hj ▸ h.jointsSound)
  | store hm _ _ hj ht =>
    exact h.of_tracker (.inl ht) rfl rfl (fun hi => by rw [hj]; exact h.idle hi) (hm.banksSound h.banks)
      (hm.activeProgram h.banks) (hj ▸ h.jointsSound)
  | ring _ _ _ _ _ hs _ hj ht =>
    exact h.of_tracker (.inl ht) rfl rfl (fun hi => by rw [hj]; exact h.idle hi) (hs ▸ h.banks) (by rw [hs])
      (hj ▸ h.jointsSound)
  | frame hn steady hj ht =>
    obtain ⟨burst, progress, ht⟩ := ht
    exact h.of_tracker ht rfl rfl (fun hi => absurd (h.idle hi).1 (hn hi)) (steady.store ▸ h.banks)
      (by rw [steady.store]) (hj h.jointsSound)
  | idle hs hb steady hj ht =>
    have hr : t.joints.records = [] := hj (h.active (by simp [hs]))
    refine ⟨steady.store ▸ h.banks, by simp [ht], fun _ => ⟨by simp [ht, hb], hr⟩, by simp [ht], ?_, ?_⟩ <;> simp [hr]
  | reset steady hj ht =>
    refine ⟨steady.store ▸ h.banks, ?_, ?_, ?_, ?_, ?_⟩ <;>
      simp [ht, hj, FrameTracker.inspectionReset, FrameTracker.fresh]

theorem Block.Opens.frameSound {b t : Block} (h : b.FrameSound) (ho : b.Opens t) : t.FrameSound := by
  obtain ⟨hi, hcand, hs, -, -, hj, hstate, hkind⟩ := ho
  obtain ⟨hb, ha, -, -⟩ := ProgramStore.exchange_sound h.banks
  obtain ⟨-, hr⟩ := h.idle hi
  refine ⟨hs ▸ hb, fun _ => by rw [hs, ha]; exact hcand, ?_, ?_, ?_, ?_⟩ <;> simp [hstate, hkind, hj, hr]

theorem Block.fullReset_frameSound (b : Block) (kind : FullResetKind) (mbxSel : BitVec 3) (imgContain : Bool) :
    (b.fullReset kind mbxSel imgContain).FrameSound := by
  have banks : (b.fullReset kind mbxSel imgContain).store.BanksSound :=
    .of_bank .bank0 (by simp [Block.fullReset, Block.fresh, ProgramStore.bank])
      (by simp [Block.fullReset, Block.fresh, ProgramStore.bank, BankId.other])
      (by simp [Block.fullReset, Block.fresh, ProgramStore.bank])
      (by simp [Block.fullReset, Block.fresh, ProgramStore.bank])
  refine ⟨banks, ?_, ?_, ?_, ?_, ?_⟩ <;> simp [Block.fullReset, Block.fresh, FrameTracker.fresh]

/-- Settles O55. -/
theorem everyStepKeepsTheFrameSound : Obligations.EveryStepKeepsTheFrameSound := by
  unfold Obligations.EveryStepKeepsTheFrameSound
  intro s t hs h
  exact step_keeps Block.fullReset_frameSound Block.Change.frameSound Block.Opens.frameSound hs h

/-! ### The usable programs (O58) -/

theorem Range.overlaps_comm (a b : Range) : a.overlaps b = b.overlaps a := by
  unfold Range.overlaps
  exact Bool.and_comm _ _

/-- A frame window clear of the mailbox window and of the ring, if there is one (R17). -/
theorem Block.windowOverlap_eq_false (b : Block) (p : Program) : b.windowOverlap p = false ↔
    p.header.window.overlaps b.decoder.window = false
      ∧ ∀ r, b.writer.ring = some r → p.header.window.overlaps r.range = false := by
  unfold Block.windowOverlap
  rcases b.writer.ring with _ | r <;> simp

theorem Decoder.window_congr {d e : Decoder} (h : d.windowBase = e.windowBase) : d.window = e.window := by
  simp [Decoder.window, h]

/-- Legal ring sizes (R172). -/
theorem legalRingSize_iff (n : Nat) : legalRingSize n = true ↔ ∃ k ≤ 12, n = 16 * 2 ^ k := by
  simp [legalRingSize, Nat.lt_succ_iff]

/-- The range clear of a frame window, if there is a program (R172). -/
theorem overlapsWindow_eq_false (r : Range) (p : Option Program) :
    overlapsWindow r p = false ↔ ∀ q, p = some q → r.overlaps q.header.window = false := by
  unfold overlapsWindow
  rcases p with _ | q <;> simp

/-- SET_RING's arguments are good, as the rule says it (R172). -/
theorem Block.ringArgumentsOk_iff (b : Block) (base size irq : Nat) :
    b.ringArgumentsOk base size irq = true ↔ b.RingInRange base size irq := by
  have enable : (enableOfCode irq).isSome = true ↔ irq ≤ 1 := by
    rcases irq with _ | _ | n <;> simp [enableOfCode]
  simp only [Block.ringArgumentsOk, Bool.and_eq_true, decide_eq_true_eq, Bool.not_eq_true', legalRingSize_iff, enable,
    overlapsWindow_eq_false, Block.RingInRange, or_imp, forall_and, and_assoc]
  rfl

/-- The ring that good arguments configure spans the range tested (R172, R173). -/
theorem ring_range_of_inRange {b : Block} {base size irq : Nat} (h : b.RingInRange base size irq) (on : Bool) :
    (⟨BitVec.ofNat 40 base, size, on⟩ : Ring).range = ⟨base, base + 32 * size - 1⟩
      ∧ base + 32 * size - 1 < 2 ^ 40 := by
  obtain ⟨-, ⟨k, -, hk⟩, hle, -⟩ := h
  have hpos : 16 ≤ size := hk ▸ Nat.le_mul_of_pos_right 16 (Nat.two_pow_pos k)
  have hb : base % 2 ^ 40 = base := Nat.mod_eq_of_lt (by omega)
  exact ⟨by simp only [Ring.range, BitVec.toNat_ofNat, hb], by omega⟩

/-- A program that may be used: sound, and clear of the mailbox window and the ring (R13, R17). -/
theorem Block.ProgramsSound.usable_iff {b t : Block} (hr : t.writer.ring = b.writer.ring)
    (hw : t.decoder.windowBase = b.decoder.windowBase) (p : Program) :
    (p.header.window.overlaps t.decoder.window = false
        ∧ ∀ r, t.writer.ring = some r → p.header.window.overlaps r.range = false)
      ↔ b.windowOverlap p = false := by
  rw [Block.windowOverlap_eq_false, hr, Decoder.window_congr hw]

/-- The programs are sound after a change that makes usable only what may be used. -/
theorem Block.ProgramsSound.of_store {b t : Block} (h : b.ProgramsSound) (hr : t.writer.ring = b.writer.ring)
    (hw : t.decoder.windowBase = b.decoder.windowBase)
    (hu : ∀ i p, t.store.bank i = .ready p ∨ t.store.bank i = .active p →
      (b.store.bank i = .ready p ∨ b.store.bank i = .active p) ∨ (p.Sound ∧ b.windowOverlap p = false))
    (hl : ∀ i l, t.store.bank i = .loading l → l.Sound) : t.ProgramsSound := by
  refine ⟨fun i p hp => ?_, fun r hring => ?_, hl⟩
  · rw [Block.ProgramsSound.usable_iff hr hw]
    rcases hu i p hp with hp | hp
    · obtain ⟨hs, hc⟩ := h.usable i p hp
      exact ⟨hs, (b.windowOverlap_eq_false p).2 hc⟩
    · exact hp
  · rw [Decoder.window_congr hw]
    exact h.ring r (hr ▸ hring)

/-- A change that keeps banks, ring and mailbox window keeps the programs sound. -/
theorem Block.Steady.programsSound {b t : Block} (h : b.ProgramsSound) (hs : b.Steady t) : t.ProgramsSound :=
  h.of_store hs.ring hs.window (fun i p hp => .inl (by rwa [hs.store] at hp)) fun i l hl =>
    h.loads i l (by rwa [hs.store] at hl)

/-- A new ring meets no usable program and not the mailbox window (R172). -/
theorem Block.ProgramsSound.of_ring {b t : Block} (hb : b.store.BanksSound) (h : b.ProgramsSound)
    {base size irq : Nat} {on : Bool} (ha : b.RingInRange base size irq)
    (hr : t.writer.ring = some ⟨BitVec.ofNat 40 base, size, on⟩) (hs : t.store = b.store)
    (hw : t.decoder.windowBase = b.decoder.windowBase) : t.ProgramsSound := by
  obtain ⟨hrange, hlt⟩ := ring_range_of_inRange ha on
  obtain ⟨-, -, -, -, hclear, hprogs⟩ := ha
  refine ⟨fun i p hp => ?_, fun r hring => ?_, fun i l hl => h.loads i l (by rwa [hs] at hl)⟩
  · rw [hs] at hp
    obtain ⟨hsound, hwin, -⟩ := h.usable i p hp
    refine ⟨hsound, by rwa [Decoder.window_congr hw], fun r hring => ?_⟩
    obtain rfl : ⟨BitVec.ofNat 40 base, size, on⟩ = r := by simpa [hr] using hring
    rw [hrange, Range.overlaps_comm]
    refine hprogs p (hp.imp (fun hp => ?_) fun hp => ?_)
    · exact ProgramStore.readyProgram_of_bank hp ((hb.other i).2.1 p hp).2
    · exact ProgramStore.activeProgram_of_bank hp ((hb.other i).2.2 p hp)
  · obtain rfl : ⟨BitVec.ofNat 40 base, size, on⟩ = r := by simpa [hr] using hring
    rw [hrange, Decoder.window_congr hw]
    exact ⟨hclear, hlt⟩

/-- A change keeps R6, and the ACTIVE program with it. -/
theorem Block.Change.banksSound {b t : Block} (h : b.store.BanksSound) (hc : b.Change t) :
    t.store.BanksSound ∧ t.store.activeProgram = b.store.activeProgram := by
  have same : t.store = b.store → t.store.BanksSound ∧ t.store.activeProgram = b.store.activeProgram :=
    fun hs => ⟨hs ▸ h, by rw [hs]⟩
  cases hc with
  | quiet hq => exact same hq.store
  | store hm _ _ _ _ => exact ⟨hm.banksSound h, hm.activeProgram h⟩
  | ring _ _ _ _ _ hs _ _ _ => exact same hs
  | frame _ steady _ _ => exact same steady.store
  | idle _ _ steady _ _ => exact same steady.store
  | reset steady _ _ => exact same steady.store

theorem Block.Change.programsSound {b t : Block} (hb : b.store.BanksSound) (h : b.ProgramsSound) (hc : b.Change t) :
    t.ProgramsSound := by
  cases hc with
  | quiet hq => exact hq.toSteady.programsSound h
  | store hm hr hw _ _ =>
    obtain ⟨hu, hl⟩ := hm.programs hb h.loads
    exact h.of_store hr hw hu hl
  | ring base size irq ha hr hs hw _ _ => exact h.of_ring hb ((b.ringArgumentsOk_iff base size irq).1 ha) hr hs hw
  | frame _ steady _ _ => exact steady.programsSound h
  | idle _ _ steady _ _ => exact steady.programsSound h
  | reset steady _ _ => exact steady.programsSound h

/-- Settles O58. -/
theorem everyStepKeepsUsableProgramsSound : Obligations.EveryStepKeepsUsableProgramsSound := by
  unfold Obligations.EveryStepKeepsUsableProgramsSound
  intro s t hb hp h
  have both : t.block.store.BanksSound ∧ t.block.ProgramsSound := by
    refine step_keeps (P := fun b => b.store.BanksSound ∧ b.ProgramsSound) ?_ ?_ ?_ ⟨hb, hp⟩ h
    · intro b kind straps contain
      refine ⟨(b.fullReset_frameSound kind straps contain).banks, fun i p hi => ?_, fun r hr => ?_, fun i l hi => ?_⟩
      · cases i <;> simp [Block.fullReset, Block.fresh, ProgramStore.bank] at hi
      · simp [Block.fullReset, Block.fresh, RecordWriter.fresh] at hr
      · cases i <;> simp [Block.fullReset, Block.fresh, ProgramStore.bank] at hi
    · exact fun ⟨hb, hp⟩ hc => ⟨(hc.banksSound hb).1, hc.programsSound hb hp⟩
    · intro b c ⟨hb, hp⟩ ho
      obtain ⟨hx, -, hu, hl⟩ := ProgramStore.exchange_sound hb
      rw [← ho.store] at hx hu hl
      exact ⟨hx, hp.of_store ho.ring ho.window (fun i p h => .inl (hu i p h)) fun i l h => hp.loads i l (hl i l h)⟩
  exact both.2

/-! ### The ACTIVE program (O49) -/

/-- Settles O49. -/
theorem activeProgramStaysDuringAFrame : Obligations.ActiveProgramStaysDuringAFrame := by
  unfold Obligations.ActiveProgramStaysDuringAFrame
  intro c s t hb hs h hc
  rcases exec_changes h hc with hch | ho
  · suffices t.block.store.BanksSound ∧ t.block.store.activeProgram = s.block.store.activeProgram from this.2
    generalize t.block = d at hch
    induction hch with
    | refl => exact ⟨hb, rfl⟩
    | tail _ hc ih =>
      obtain ⟨hb', ha⟩ := hc.banksSound ih.1
      exact ⟨hb', ha.trans ih.2⟩
  · exact absurd ho.idle hs

end Sys2Proof.Machine
end

section
/-! SUPPORT. The arguments and the outcome of a command row, and the obligations on the commands of the mailbox and on
FULL_RESET (O2, O35, O43). -/

namespace Sys2Proof.Machine

/-- Settles O2. -/
theorem fullResetRestoresEveryBlock : Obligations.FullResetRestoresEveryBlock := by
  unfold Obligations.FullResetRestoresEveryBlock
  intro kind mbxSel imgContain s
  cases kind <;> rfl

/-! ### Arguments and outcomes -/

/-- A field of a row's write that no field before it covers gives its byte. -/
theorem slotByte_of_field {before after : List SlotField} {f : SlotField} {k : Nat} (hk : k < f.size)
    (hd : ∀ g ∈ before, g.offset + g.size ≤ f.offset ∨ f.offset + f.size ≤ g.offset) :
    slotByte (f.offset + k) (before ++ f :: after) = some (BitVec.ofNat 8 (f.value / 256 ^ k)) := by
  induction before with
  | nil => simp [slotByte, hk]
  | cons g before ih =>
    have hg := hd g (by simp)
    rw [List.cons_append, slotByte, if_neg (by omega)]
    exact ih fun x hx => hd x (List.mem_cons_of_mem g hx)

/-- Two fields of a row share no byte. -/
def SlotField.apart (f g : SlotField) : Prop := f.offset + f.size ≤ g.offset ∨ g.offset + g.size ≤ f.offset

/-- A command's arguments are the fields of its row, when these lie apart and in the slot (R202). -/
theorem Block.copied_arguments (b : Block) {kind : Nat} {fields : List SlotField}
    (hp : (⟨0, 4, kind⟩ :: fields).Pairwise SlotField.apart)
    (hf : ∀ f ∈ fields, f.offset + f.size ≤ 64 ∧ f.value < 256 ^ f.size) :
    ∀ f ∈ fields, (b.copied kind fields).decoder.argument f.offset f.size = f.value := by
  intro f hmem
  obtain ⟨before, after, he⟩ := List.append_of_mem (List.mem_cons_of_mem (⟨0, 4, kind⟩ : SlotField) hmem)
  obtain ⟨hoff, hv⟩ := hf f hmem
  refine b.copied_argument kind fields f.offset f.size f.value hoff hv fun k hk => ?_
  rw [he] at hp ⊢
  exact slotByte_of_field hk fun g hg => (List.pairwise_append.1 hp).2.2 g hg f List.mem_cons_self

/-- The outcome that a command row records is the one its owner decides (R185). -/
theorem Block.commandWrite_outcome (b : Block) {kind : Nat} (fields : List SlotField) (inHand : Bool) (h0 : kind ≠ 0)
    (h : kind < 2 ^ 32) : (b.commandWrite kind fields inHand).decoder.lastOutcome =
      ((b.copied kind fields).decideCommand kind inHand).2 := by
  rw [Block.commandWrite_eq b kind fields inHand h0 h]
  simp only [Block.recordCommand, Block.askRewrite_frame]
  rfl

@[simp] theorem Block.copied_window (b : Block) (kind : Nat) (fields : List SlotField) :
    (b.copied kind fields).decoder.window = b.decoder.window :=
  Decoder.window_congr (by simp only [Block.copied])

@[simp] theorem Block.copied_resetPending (b : Block) (kind : Nat) (fields : List SlotField) :
    (b.copied kind fields).decoder.resetPending = b.decoder.resetPending := by simp only [Block.copied]

/-- No bank is LOADING, said of each bank. -/
theorem ProgramStore.loadingBank_isSome (s : ProgramStore) :
    s.loadingBank.isSome = true ↔ s.bank0.load?.isSome ∨ s.bank1.load?.isSome := by
  simp only [ProgramStore.loadingBank, ProgramStore.findBank]
  split_ifs with h0 h1
  · exact iff_of_true rfl (.inl h0)
  · exact iff_of_true rfl (.inr h1)
  · exact iff_of_false (by simp) (not_or.2 ⟨h0, h1⟩)

theorem Block.loadProgram_outcome (b : Block) (address : Nat) (ha : b.decoder.argument 8 8 = address) :
    b.loadProgram.2 = if b.store.bank0.load?.isSome ∨ b.store.bank1.load?.isSome then .busy
      else if address % 16 ≠ 0 ∨ 2 ^ 40 ≤ address then .badArgument else .started := by
  have hload := ProgramStore.loadingBank_isSome b.store
  simp only [Block.loadProgram, ha]
  rcases hb : b.store.loadingBank with _ | i <;> rw [hb] at hload
  · have hno : ¬ (b.store.bank0.load?.isSome ∨ b.store.bank1.load?.isSome) := fun h => by simpa using hload.2 h
    rw [if_neg hno]
    dsimp only
    split
    · next hbad => exact (if_pos hbad).symm
    · next hgood => exact (if_neg hgood).symm
  · rw [if_pos (hload.1 rfl)]

theorem Block.abortLoad_outcome (b : Block) :
    b.abortLoad.2 = if b.store.bank0.load?.isSome ∨ b.store.bank1.load?.isSome then .done else .wrongState := by
  have hload := ProgramStore.loadingBank_isSome b.store
  unfold Block.abortLoad
  rcases hb : b.store.loadingBank with _ | i <;> rw [hb] at hload
  · rw [if_neg (fun h => by simpa using hload.2 h)]
  · rw [if_pos (hload.1 rfl)]

theorem Block.setRing_outcome (b : Block) {base size irq : Nat} (hb : b.decoder.argument 8 8 = base)
    (hs : b.decoder.argument 16 4 = size) (hi : b.decoder.argument 20 1 = irq) :
    (¬ b.RingInRange base size irq → b.setRing.2 = .badArgument)
    ∧ (b.RingInRange base size irq → b.setRing.2 =
      if b.writer.ring ≠ none ∧ b.writer.producer ≠ b.writer.consumer then .wrongState else .done) := by
  simp only [Block.setRing, hb, hs, hi]
  constructor
  · intro h
    rw [← Block.ringArgumentsOk_iff] at h
    simp [h]
  · intro h
    rw [← Block.ringArgumentsOk_iff] at h
    simp only [h, Bool.not_true, Bool.false_eq_true, if_false, Bool.and_eq_true, Option.isSome_iff_ne_none, bne_iff_ne]
    split_ifs <;> rfl

/-- The codes of R202 that SET_LINE's arguments name. -/
theorem senseOfCode_isSome (n : Nat) : (senseOfCode n).isSome = true ↔ n ≤ 1 := by
  rcases n with _ | _ | n <;> simp [senseOfCode]

theorem polarityOfCode_isSome (n : Nat) : (polarityOfCode n).isSome = true ↔ n ≤ 1 := by
  rcases n with _ | _ | n <;> simp [polarityOfCode]

theorem reportModeOfCode_isSome (n : Nat) : (reportModeOfCode n).isSome = true ↔ n ≤ 2 := by
  rcases n with _ | _ | _ | n <;> simp [reportModeOfCode]

theorem gateModeOfCode_isSome (n : Nat) : (gateModeOfCode n).isSome = true ↔ n ≤ 2 := by
  rcases n with _ | _ | _ | n <;> simp [gateModeOfCode]

theorem gateModeOfCode_keep {n : Nat} {g : GateModeArg} (h : gateModeOfCode n = some g) : g = .keep ↔ n = 0 := by
  rcases n with _ | _ | _ | n <;> simp [gateModeOfCode] at h <;> simp [← h]

/-- SET_LINE's arguments, as its row carries them (R202). -/
theorem Block.copied_lineFields (b : Block) (a : LineArgs) :
    ∀ f ∈ lineFields a, (b.copied 4 (lineFields a)).decoder.argument f.offset f.size = f.value := by
  have word : ∀ x : BitVec 32, x.toNat < 256 ^ 4 := fun x => x.isLt
  have byte : ∀ x : Byte, x.toNat < 256 ^ 1 := fun x => x.isLt
  apply b.copied_arguments
  · simp [lineFields, SlotField.apart]
  · simp only [lineFields, List.forall_mem_cons, List.not_mem_nil, false_implies, implies_true, and_true, word, byte]
    decide

/-- SET_LINE's arguments name a configuration exactly when they are in range (R190, R202). -/
theorem Block.copied_lineArguments (b : Block) (a : LineArgs) :
    (lineInRange a → ∃ config gate, (b.copied 4 (lineFields a)).decoder.lineArguments = some (config, gate)
      ∧ (gate = .keep ↔ a.gateMode = 0))
    ∧ (¬ lineInRange a → (b.copied 4 (lineFields a)).decoder.lineArguments = none) := by
  have arguments := b.copied_lineFields a
  simp only [lineFields, List.forall_mem_cons, List.not_mem_nil, false_implies, implies_true, and_true] at arguments
  obtain ⟨h1, h2, h3, h4, h5, h6, h7, h8, h9⟩ := arguments
  simp only [Decoder.lineArguments, lineFields, h1, h2, h3, h4, h5, h6, h7, h8, h9]
  have zero : a.gateMode = 0 ↔ a.gateMode.toNat = 0 := by rw [← BitVec.toNat_inj]; rfl
  constructor
  · rintro ⟨d1, d2, w1, w2, dt, tm, hs, hp, hr, hh, hg⟩
    rw [if_pos ⟨d1, d2, w1, w2, dt, tm, hh⟩]
    obtain ⟨s, hs⟩ := Option.isSome_iff_exists.1 ((senseOfCode_isSome _).2 hs)
    obtain ⟨p, hp⟩ := Option.isSome_iff_exists.1 ((polarityOfCode_isSome _).2 hp)
    obtain ⟨r, hr⟩ := Option.isSome_iff_exists.1 ((reportModeOfCode_isSome _).2 hr)
    obtain ⟨g, hg⟩ := Option.isSome_iff_exists.1 ((gateModeOfCode_isSome _).2 hg)
    simp only [hs, hp, hr, hg]
    exact ⟨_, g, rfl, (gateModeOfCode_keep hg).trans zero.symm⟩
  · intro hno
    split_ifs with hrange
    · obtain ⟨d1, d2, w1, w2, dt, tm, hh⟩ := hrange
      split
      · next s p r g hs hp hr hg =>
        exact absurd ⟨d1, d2, w1, w2, dt, tm, (senseOfCode_isSome _).1 (by simp [hs]),
          (polarityOfCode_isSome _).1 (by simp [hp]), (reportModeOfCode_isSome _).1 (by simp [hr]), hh,
          (gateModeOfCode_isSome _).1 (by simp [hg])⟩ hno
      · rfl
    · rfl

theorem Block.setLine_outcome (b : Block) :
    (∀ config gate, b.decoder.lineArguments = some (config, gate) → b.setLine.2 =
      if b.line.queue ≠ [] ∨ (b.line.gateMode = .held ∧ gate ≠ .keep) then .wrongState else .done)
    ∧ (b.decoder.lineArguments = none → b.setLine.2 = .badArgument) := by
  constructor
  · intro config gate h
    simp only [Block.setLine, h]
    rcases b.line.queue with _ | ⟨x, rest⟩
    · simp only [List.isEmpty_nil, Bool.not_true, Bool.false_eq_true, if_false, ne_eq, not_true_eq_false, false_or]
      split_ifs <;> rfl
    · simp
  · intro h
    simp [Block.setLine, h]

theorem Block.setPortPolicy_outcome (b : Block) {port policy fail : Nat} (h1 : b.decoder.argument 4 1 = port)
    (h2 : b.decoder.argument 5 1 = policy) (h3 : b.decoder.argument 6 1 = fail) :
    b.setPortPolicy.2 = if (port = 1 ∨ port = 2) ∧ policy ≤ 1 ∧ fail ≤ 1 then .done else .badArgument := by
  simp only [Block.setPortPolicy, h1, h2, h3]
  have hp : (portOfCode port).isSome = true ↔ port = 1 ∨ port = 2 := by
    rcases port with _ | _ | _ | n <;> simp [portOfCode]
  have hq : (policyOfCode policy).isSome = true ↔ policy ≤ 1 := by
    rcases policy with _ | _ | n <;> simp [policyOfCode]
  have hf : (failResponseOfCode fail).isSome = true ↔ fail ≤ 1 := by
    rcases fail with _ | _ | n <;> simp [failResponseOfCode]
  split
  · next i p f hi hj hk => simp [← hp, ← hq, ← hf, hi, hj, hk]
  · next hno =>
    rw [if_neg]
    rintro ⟨h1, h2, h3⟩
    obtain ⟨i, hi⟩ := Option.isSome_iff_exists.1 (hp.2 h1)
    obtain ⟨p, hj⟩ := Option.isSome_iff_exists.1 (hq.2 h2)
    obtain ⟨f, hk⟩ := Option.isSome_iff_exists.1 (hf.2 h3)
    exact hno i p f hi hj hk

theorem Block.clearLog_outcome (b : Block) {code : Nat} (h : b.decoder.argument 4 1 = code) :
    b.clearLog.2 = if 1 ≤ code ∧ code ≤ 4 then .done else .badArgument := by
  simp only [Block.clearLog, h]
  rcases code with _ | _ | _ | _ | _ | n <;> simp [sourceOfCode]

/-- A log holds a FATAL error when its level is 3 (R123, R125). -/
theorem ErrorLog.holdsFatal_iff (l : ErrorLog) : l.holdsFatal = true ↔ l.level = 3 := by
  unfold ErrorLog.holdsFatal ErrorLog.level
  rcases l.held with _ | ⟨_, severity, _, _, _⟩
  · simp
  · cases severity <;> simp [Severity.code]

theorem Block.resumePort_outcome (b : Block) {code : Nat} (h : b.decoder.argument 4 1 = code) :
    (portOfCode code = none → b.resumePort.2 = .badArgument)
    ∧ ∀ i, portOfCode code = some i → b.resumePort.2 =
      if (b.logs.log (portLog i)).level = 3 then .wrongState else .done := by
  simp only [Block.resumePort, h]
  constructor
  · intro hn; simp [hn]
  · intro i hi
    simp only [hi, ErrorLog.holdsFatal_iff]
    split_ifs
    · rfl
    · split <;> rfl

theorem Block.releaseGate_outcome (b : Block) :
    b.releaseGate.2 = if b.line.gateMode = .held then .done else .wrongState := by
  unfold Block.releaseGate
  rcases b.line.gateMode <;> rfl

/-- A segment is in hand as the operand says, in an OPEN frame with a segment left (R192). -/
theorem Block.holdsSegment_iff (b : Block) (inHand : Bool) : b.holdsSegment inHand = true ↔
    inHand = true ∧ b.tracker.state = .opened ∧ b.tracker.burst.any (fun burst => !burst.segments.isEmpty) = true := by
  unfold Block.holdsSegment
  rcases b.tracker.burst with _ | burst <;> simp [and_assoc]

theorem Block.inspectionReset_outcome (b : Block) (inHand : Bool) : (b.inspectionReset inHand).2 =
    if b.decoder.resetPending then .busy
    else if b.tracker.state = .closing ∨ (inHand = true ∧ b.tracker.state = .opened
      ∧ b.tracker.burst.any (fun burst => !burst.segments.isEmpty) = true) then .started
    else .done := by
  simp only [Block.inspectionReset, Block.holdsSegment_iff]
  split_ifs <;> rfl

/-- SET_RING's arguments are judged by the banks and the window, which the row's write leaves (R172). -/
theorem Block.copied_ringInRange (b : Block) (kind : Nat) (fields : List SlotField) (base size irq : Nat) :
    (b.copied kind fields).RingInRange base size irq ↔ b.RingInRange base size irq := by
  simp only [Block.RingInRange, Block.copied_window, Block.copied_frame]

/-- The block after a command that changes the block alone. -/
theorem onBlock_block {s t : State} {f : Block → Block} (h : s.onBlock f = .next t) : t.block = f s.block := by
  cases h
  rfl

/-- The outcome after a command row (R185). -/
theorem commandRow_outcome {s t : State} {kind : Nat} {fields : List SlotField} {inHand : Bool}
    (h : (s.onBlock fun b => b.commandWrite kind fields inHand) = .next t) (h0 : kind ≠ 0) (hk : kind < 2 ^ 32) :
    t.block.decoder.lastOutcome = ((s.block.copied kind fields).decideCommand kind inHand).2 := by
  rw [onBlock_block h]
  exact s.block.commandWrite_outcome fields inHand h0 hk

/-- The argument of a row with one argument byte. -/
theorem Block.copied_byte (b : Block) (kind : Nat) (v : Byte) :
    (b.copied kind [⟨4, 1, v.toNat⟩]).decoder.argument 4 1 = v.toNat :=
  b.copied_arguments (fields := [⟨4, 1, v.toNat⟩]) (by simp [SlotField.apart]) (by simpa using v.isLt)
    ⟨4, 1, v.toNat⟩ (by simp)

theorem loadProgram_outcome {s t : State} {address : BitVec 64} (h : exec (.loadProgram address) s = .next t) :
    t.block.decoder.lastOutcome =
      if s.block.store.bank0.load?.isSome ∨ s.block.store.bank1.load?.isSome then .busy
      else if address.toNat % 16 ≠ 0 ∨ 2 ^ 40 ≤ address.toNat then .badArgument else .started := by
  have arguments := s.block.copied_arguments (kind := 1) (fields := [⟨8, 8, address.toNat⟩])
    (by simp [SlotField.apart]) (by simpa using address.isLt)
  rw [commandRow_outcome (kind := 1) (fields := [⟨8, 8, address.toNat⟩]) (inHand := false) h (by decide) (by decide)]
  simpa only [Block.copied_frame, Block.decideCommand] using
    (s.block.copied 1 _).loadProgram_outcome _ (arguments ⟨8, 8, address.toNat⟩ (by simp))

theorem setRing_outcome {s t : State} {base : BitVec 64} {size : BitVec 32} {irq : Byte}
    (h : exec (.setRing base size irq) s = .next t) :
    (¬ s.block.RingInRange base.toNat size.toNat irq.toNat → t.block.decoder.lastOutcome = .badArgument)
    ∧ (s.block.RingInRange base.toNat size.toNat irq.toNat → t.block.decoder.lastOutcome =
      if s.block.writer.ring ≠ none ∧ s.block.writer.producer ≠ s.block.writer.consumer then .wrongState
      else .done) := by
  have arguments := s.block.copied_arguments (kind := 3)
    (fields := [⟨8, 8, base.toNat⟩, ⟨16, 4, size.toNat⟩, ⟨20, 1, irq.toNat⟩]) (by simp [SlotField.apart])
    (by simpa using ⟨base.isLt, size.isLt, irq.isLt⟩)
  rw [commandRow_outcome (kind := 3) (inHand := false) h (by decide) (by decide),
    ← s.block.copied_ringInRange 3 [⟨8, 8, base.toNat⟩, ⟨16, 4, size.toNat⟩, ⟨20, 1, irq.toNat⟩]]
  simpa only [Block.copied_frame, Block.decideCommand] using
    (s.block.copied 3 _).setRing_outcome (arguments ⟨8, 8, base.toNat⟩ (by simp))
      (arguments ⟨16, 4, size.toNat⟩ (by simp)) (arguments ⟨20, 1, irq.toNat⟩ (by simp))

theorem setLine_outcome {s t : State} {a : LineArgs} (h : exec (.setLine a) s = .next t) :
    (¬ lineInRange a → t.block.decoder.lastOutcome = .badArgument)
    ∧ (lineInRange a → t.block.decoder.lastOutcome =
      if s.block.line.queue ≠ [] ∨ (s.block.line.gateMode = .held ∧ a.gateMode ≠ 0) then .wrongState else .done) := by
  rw [commandRow_outcome (kind := 4) (fields := lineFields a) (inHand := false) h (by decide) (by decide)]
  obtain ⟨inRange, outOfRange⟩ := s.block.copied_lineArguments a
  obtain ⟨good, bad⟩ := (s.block.copied 4 (lineFields a)).setLine_outcome
  refine ⟨fun hno => bad (outOfRange hno), fun hin => ?_⟩
  obtain ⟨config, gate, hc, hg⟩ := inRange hin
  have keep : gate ≠ .keep ↔ a.gateMode ≠ 0 := not_congr hg
  simpa only [keep, Block.copied_frame, Block.decideCommand] using good config gate hc

theorem setPortPolicy_outcome {s t : State} {port policy fail : Byte} {limit : BitVec 16}
    (h : exec (.setPortPolicy port policy fail limit) s = .next t) :
    t.block.decoder.lastOutcome =
      if (port = 1 ∨ port = 2) ∧ policy.toNat ≤ 1 ∧ fail.toNat ≤ 1 then .done else .badArgument := by
  have arguments := s.block.copied_arguments (kind := 5)
    (fields := [⟨4, 1, port.toNat⟩, ⟨5, 1, policy.toNat⟩, ⟨6, 1, fail.toNat⟩, ⟨8, 2, limit.toNat⟩])
    (by simp [SlotField.apart]) (by simpa using ⟨port.isLt, policy.isLt, fail.isLt, limit.isLt⟩)
  rw [commandRow_outcome (kind := 5)
    (fields := [⟨4, 1, port.toNat⟩, ⟨5, 1, policy.toNat⟩, ⟨6, 1, fail.toNat⟩, ⟨8, 2, limit.toNat⟩]) (inHand := false) h
    (by decide) (by decide)]
  have codes : (port.toNat = 1 ∨ port.toNat = 2) ↔ (port = 1 ∨ port = 2) := by
    simp [← BitVec.toNat_inj]
  simp only [← codes, Block.decideCommand]
  exact (s.block.copied 5 _).setPortPolicy_outcome (arguments ⟨4, 1, port.toNat⟩ (by simp))
    (arguments ⟨5, 1, policy.toNat⟩ (by simp)) (arguments ⟨6, 1, fail.toNat⟩ (by simp))

theorem resumePort_outcome {s t : State} {code : Byte} (h : exec (.resumePort code) s = .next t) :
    (code ≠ 1 → code ≠ 2 → t.block.decoder.lastOutcome = .badArgument)
    ∧ (code = 1 → t.block.decoder.lastOutcome = if s.block.logs.capture.level = 3 then .wrongState else .done)
    ∧ (code = 2 → t.block.decoder.lastOutcome = if s.block.logs.system.level = 3 then .wrongState else .done) := by
  rw [commandRow_outcome (kind := 7) (fields := [⟨4, 1, code.toNat⟩]) (inHand := false) h (by decide) (by decide)]
  obtain ⟨bad, good⟩ := (s.block.copied 7 _).resumePort_outcome (s.block.copied_byte 7 code)
  simp only [Block.copied_frame] at good
  simp only [Block.decideCommand]
  refine ⟨fun h1 h2 => bad ?_, ?_, ?_⟩
  · have h1' : code.toNat ≠ 1 := fun h => h1 (BitVec.eq_of_toNat_eq h)
    have h2' : code.toNat ≠ 2 := fun h => h2 (BitVec.eq_of_toNat_eq h)
    rcases hc : code.toNat with _ | _ | _ | n <;> simp_all [portOfCode]
  · rintro rfl
    exact good .capture rfl
  · rintro rfl
    exact good .system rfl

/-- Settles O43. -/
theorem ownersDecideOutcomesInOrder : Obligations.OwnersDecideOutcomesInOrder := by
  unfold Obligations.OwnersDecideOutcomesInOrder
  intro s t
  refine ⟨fun _ => loadProgram_outcome, fun h => ?_, fun _ _ _ => setRing_outcome, fun _ => setLine_outcome,
    fun _ _ _ _ => setPortPolicy_outcome, fun code h => ?_, fun _ => resumePort_outcome, fun h => ?_,
    fun inHand h => ?_⟩
  · rw [commandRow_outcome (kind := 2) (fields := []) (inHand := false) h (by decide) (by decide)]
    simpa only [Block.copied_frame, Block.decideCommand] using (s.block.copied 2 []).abortLoad_outcome
  · rw [commandRow_outcome (kind := 6) (fields := [⟨4, 1, code.toNat⟩]) (inHand := false) h (by decide) (by decide)]
    simpa only [Block.decideCommand] using (s.block.copied 6 _).clearLog_outcome (s.block.copied_byte 6 code)
  · rw [commandRow_outcome (kind := 8) (fields := []) (inHand := false) h (by decide) (by decide)]
    simpa only [Block.copied_frame, Block.decideCommand] using (s.block.copied 8 []).releaseGate_outcome
  · rw [commandRow_outcome (kind := 9) (fields := []) (inHand := inHand) h (by decide) (by decide)]
    simpa only [Block.copied_frame, Block.copied_resetPending, Block.decideCommand] using
      (s.block.copied 9 []).inspectionReset_outcome inHand

end Sys2Proof.Machine
end

section
/-! SUPPORT. Commands whose owner asks for a rewrite itself, and the start and stop of a load (O35). -/

namespace Sys2Proof.Machine

/-- A command recorded after its owner has asked for a rewrite asks for no other (R185, R194). -/
theorem Block.recordCommand_asked {c d : Block} (hm : c.master = d.askRewrite.master)
    (hs : c.stamp = d.askRewrite.stamp) (kind : Nat) (o : CommandOutcome) : c.recordCommand kind o =
      { c with decoder := { c.decoder with
          commandCount := c.decoder.commandCount + 1, lastKind := BitVec.ofNat 32 kind, lastOutcome := o } } :=
  Block.askRewrite_again hm hs

/-- A command row whose owner has asked for a rewrite. -/
theorem Block.commandWrite_asked (b : Block) {kind : Nat} (fields : List SlotField) (inHand : Bool) (h0 : kind ≠ 0)
    (h : kind < 2 ^ 32) {c d : Block} {o : CommandOutcome}
    (hd : (b.copied kind fields).decideCommand kind inHand = (c, o)) (hm : c.master = d.askRewrite.master)
    (hs : c.stamp = d.askRewrite.stamp) : b.commandWrite kind fields inHand =
      { c with decoder := { c.decoder with
          commandCount := c.decoder.commandCount + 1, lastKind := BitVec.ofNat 32 kind, lastOutcome := o } } := by
  rw [Block.commandWrite_eq b kind fields inHand h0 h]
  change (((b.copied kind fields).decideCommand kind inHand).1.recordCommand kind
    ((b.copied kind fields).decideCommand kind inHand).2) = _
  rw [hd]
  exact Block.recordCommand_asked hm hs kind o

/-- The end of the load of the bank found LOADING. -/
theorem Block.endLoad_of_loadingBank {b : Block} {i : BankId} (h : b.store.loadingBank = some i) (outcome : LoadOutcome)
    (index : Nat) : b.endLoad outcome index = b.loadEnded i outcome index := by
  have hd : b.master.dropFetchWait = { b.master with waiters := b.master.waiters.filter (· ≠ .fetch) } := by
    simp only [InternalMaster.dropFetchWait, bne, Bool.beq_eq_decide_eq, ne_eq, decide_not]
  have ha := Block.askRewrite_congr
    (b := { b with store := b.store.endLoad outcome index, master := b.master.dropFetchWait })
    (c := { b with master := { b.master with waiters := b.master.waiters.filter (· ≠ .fetch) } }) hd rfl
  have hs : b.store.endLoad outcome index =
      { b.store.setBank i .empty with record := ⟨b.store.record.target, some outcome, index⟩ } := by
    simp [ProgramStore.endLoad, h]
  simp only [Block.endLoad, h, Block.loadEnded]
  apply Block.eq_of_parts
  case h4 => exact ha.1
  case h14 => exact ha.2
  all_goals simp [hs]

/-- The target of a new load, bank by bank (R8). -/
theorem ProgramStore.loadTarget_eq (s : ProgramStore) : s.loadTarget =
    if s.bank0.ready?.isSome then .bank0
    else if s.bank1.ready?.isSome then .bank1
    else if s.bank0.active?.isSome then .bank1
    else .bank0 := by
  simp only [ProgramStore.loadTarget, ProgramStore.readyBank, ProgramStore.activeBank, ProgramStore.findBank]
  split_ifs <;> rfl

/-- A load started: the target is LOADING, the other bank as it was (R7, R8). -/
theorem ProgramStore.startLoad_eq (s : ProgramStore) (a : Addr) : s.startLoad a =
    { bank0 := if s.loadTarget = .bank0 then .loading ⟨a, none, [], [], [], 0, none⟩ else s.bank0
      bank1 := if s.loadTarget = .bank1 then .loading ⟨a, none, [], [], [], 0, none⟩ else s.bank1
      record := ⟨some s.loadTarget, none, 0⟩ } := by
  unfold ProgramStore.startLoad
  rcases s.loadTarget <;> rfl

/-- LOAD_PROGRAM with a good address and no load in progress (R8). -/
theorem execLoadProgram_started {s : State} {address : BitVec 64} (h0 : s.block.store.bank0.load? = none)
    (h1 : s.block.store.bank1.load? = none) (ha : address.toNat % 16 = 0) (hl : address.toNat < 2 ^ 40) :
    s.block.commandWrite 1 [⟨8, 8, address.toNat⟩] false = { s.block.askRewrite with
      decoder := s.block.decoder.took 1 [⟨8, 8, address.toNat⟩] .started
      store := s.block.store.startLoad (BitVec.ofNat 40 address.toNat) } := by
  have arg : (s.block.copied 1 [⟨8, 8, address.toNat⟩]).decoder.argument 8 8 = address.toNat :=
    s.block.copied_arguments (fields := [⟨8, 8, address.toNat⟩]) (by simp [SlotField.apart])
      (by simpa using address.isLt) ⟨8, 8, address.toNat⟩ (by simp)
  have noLoad : s.block.store.loadingBank = none := by
    simp only [ProgramStore.loadingBank, ProgramStore.findBank, h0, h1]
    rfl
  have good : ¬ (address.toNat % 16 ≠ 0 ∨ addrLimit ≤ address.toNat) := by
    rintro (h | h)
    · exact h ha
    · exact absurd hl (not_lt.2 h)
  have decided : (s.block.copied 1 [⟨8, 8, address.toNat⟩]).decideCommand 1 false =
      (({ s.block.copied 1 [⟨8, 8, address.toNat⟩] with
        store := s.block.store.startLoad (BitVec.ofNat 40 address.toNat) } : Block).askRewrite, .started) := by
    simp only [Block.decideCommand, Block.loadProgram, arg, Block.copied_frame, noLoad, if_neg good]
  have asked := Block.askRewrite_congr (b := { s.block.copied 1 [⟨8, 8, address.toNat⟩] with
    store := s.block.store.startLoad (BitVec.ofNat 40 address.toNat) }) (c := s.block) (by simp) (by simp)
  rw [s.block.commandWrite_asked _ false (by decide) (by decide) decided asked.1 asked.2]
  apply Block.eq_of_parts
  case h4 => exact asked.1
  case h5 => simp [Block.copied, Decoder.took]
  case h14 => exact asked.2
  all_goals simp

/-- ABORT_LOAD while a bank is LOADING (R9). -/
theorem execAbortLoad_done {s : State} {i : BankId} (h : s.block.store.loadingBank = some i) :
    s.block.commandWrite 2 [] false =
      { ({ s.block with master :=
          { s.block.master with waiters := s.block.master.waiters.filter (· ≠ .fetch) } } : Block).askRewrite with
        decoder := s.block.decoder.took 2 [] .done
        store := { s.block.store.setBank i .empty with
          record := ⟨s.block.store.record.target, some .aborted, 0⟩ } } := by
  have decided : (s.block.copied 2 []).decideCommand 2 false =
      ((s.block.copied 2 []).loadEnded i .aborted 0, .done) := by
    simp only [Block.decideCommand, Block.abortLoad, Block.copied_frame, h]
    rw [Block.endLoad_of_loadingBank (by simpa using h)]
  have asked := Block.askRewrite_congr
    (b := { s.block.copied 2 [] with
      master := { (s.block.copied 2 []).master with
        waiters := (s.block.copied 2 []).master.waiters.filter (· ≠ .fetch) } })
    (c := { s.block with master := { s.block.master with waiters := s.block.master.waiters.filter (· ≠ .fetch) } })
    (by simp) (by simp)
  rw [s.block.commandWrite_asked _ false (by decide) (by decide) decided asked.1 asked.2]
  apply Block.eq_of_parts
  case h4 => exact asked.1
  case h5 => simp [Block.loadEnded, Block.copied, Decoder.took]
  case h14 => exact asked.2
  all_goals simp [Block.loadEnded]

/-- Settles O35. -/
theorem loadCommandsStartAndStopALoad : Obligations.LoadCommandsStartAndStopALoad := by
  unfold Obligations.LoadCommandsStartAndStopALoad
  refine ⟨fun s address h0 h1 ha hl => ?_, fun s l => ⟨fun h => ?_, fun h0 h1 => ?_⟩⟩
  · show Host.Outcome.next (s.withBlock (s.block.commandWrite 1 [⟨8, 8, address.toNat⟩] false)) = _
    rw [execLoadProgram_started h0 h1 ha hl, ProgramStore.startLoad_eq, ProgramStore.loadTarget_eq]
  · show Host.Outcome.next (s.withBlock (s.block.commandWrite 2 [] false)) = _
    have hb : s.block.store.loadingBank = some .bank0 := by
      simp only [ProgramStore.loadingBank, ProgramStore.findBank, h]
      rfl
    rw [execAbortLoad_done hb]
    rfl
  · show Host.Outcome.next (s.withBlock (s.block.commandWrite 2 [] false)) = _
    have hb : s.block.store.loadingBank = some .bank1 := by
      simp only [ProgramStore.loadingBank, ProgramStore.findBank, h0, h1]
      rfl
    rw [execAbortLoad_done hb]
    rfl

end Sys2Proof.Machine
end

section
/-! SUPPORT. What does not depend on the mailbox decoder, and the inspection reset (O41). -/

namespace Sys2Proof.Machine

/-! ### The inspection reset at once (R44, R193) -/

/-- The late note of a line without one is not changed. -/
theorem Line.cutOwner_noNote {l : Line} (h : l.lateNote = none) (o : Option Serial) : l.cutOwner o = l := by
  rcases o with _ | o <;> simp [Line.cutOwner, Line.setNote, h]

/-- The line after an inspection reset: the driver let go, unless the gate is held (R122). -/
theorem Line.inspectionReset_eq (l : Line) : l.inspectionReset = { l with
    queue := []
    lateNote := none
    driver := if l.gateMode = .held then l.driver else
      match l.driver with
      | .idle => .idle
      | .driving kind _ _ => if l.config.deadTime = 0 then .idle else .dead kind l.config.deadTime none
      | .dead line left _ => .dead line left none } := by
  have letGo : ({ l with queue := [], lateNote := none } : Line).letGo = { l with
      queue := []
      lateNote := none
      driver := match l.driver with
        | .idle => .idle
        | .driving kind _ _ => if l.config.deadTime = 0 then .idle else .dead kind l.config.deadTime none
        | .dead line left _ => .dead line left none } := by
    rcases l.driver with _ | ⟨kind, endAt, o⟩ | ⟨line, left, _ | ⟨k, e, o⟩ | _⟩ <;>
      simp only [Line.letGo, Line.cutOwner_noNote]
    simp only [Line.enterDead, Line.endDead]
    split_ifs <;> rfl
  simp only [Line.inspectionReset, letGo]
  by_cases held : l.gateMode = .held
  · simp only [held, if_true]
  · rw [if_neg held]
    split
    · contradiction
    · rfl

/-- The block with frame, joints, tally, board queue, late note and reset flag cleared, the driver let go unless the
gate is held, and the reset cause COMMAND (R44, R79, R96, R122, R193). -/
def Block.inspectionCleared (b : Block) : Block :=
  { b with
    tracker := ⟨.idle, b.tracker.number, none, 0, none, [], none⟩
    joints := ⟨[], 0⟩
    tally := ⟨⟨0, 0, 0, 0, 0, 0⟩, false, 0⟩
    line := { b.line with
      queue := []
      lateNote := none
      driver := if b.line.gateMode = .held then b.line.driver else
        match b.line.driver with
        | .idle => .idle
        | .driving kind _ _ => if b.line.config.deadTime = 0 then .idle else .dead kind b.line.config.deadTime none
        | .dead line left _ => .dead line left none }
    decoder := { b.decoder with resetPending := false, resetCause := .command } }

/-- The inspection reset takes a block to this one: cleared, with the load in progress ended, if there is one. -/
def Block.TakesReset (b t : Block) : Prop :=
  (b.store.bank0.load? = none → b.store.bank1.load? = none → t = b.askRewrite.inspectionCleared)
  ∧ ∀ i l, b.store.bank i = .loading l → (b.store.bank i.other).load? = none →
    t = (b.loadEnded i .aborted 0).inspectionCleared

/-- The inspection reset, once the load has ended. -/
theorem Block.takeInspectionReset_eq {b c : Block} (hc : b.endLoad .aborted 0 = c)
    (d : Block) (hm : d.master = c.askRewrite.master) (hs : d.stamp = c.askRewrite.stamp)
    (hd : { c with master := d.master, stamp := d.stamp } = d) : b.takeInspectionReset = d.inspectionCleared := by
  have ha := Block.askRewrite_of_master (b := { c with
    tracker := c.tracker.inspectionReset, joints := ⟨[], 0⟩, tally := .fresh, line := c.line.inspectionReset
    decoder := { c.decoder with resetPending := false, resetCause := .command } }) (c := c) rfl rfl
  simp only [Block.takeInspectionReset, hc]
  rw [ha, ← hd, ← hm, ← hs]
  simp only [Block.inspectionCleared, Line.inspectionReset_eq]
  rfl

/-- The inspection reset is taken as R44 and R193 say. -/
theorem Block.takeInspectionReset_takes (b : Block) : b.TakesReset b.takeInspectionReset := by
  constructor
  · intro h0 h1
    refine Block.takeInspectionReset_eq (Block.endLoad_of_none _ _ h0 h1) _ rfl rfl ?_
    apply Block.eq_of_parts <;> simp
  · intro i l h ho
    have again : (b.loadEnded i .aborted 0).askRewrite = b.loadEnded i .aborted 0 := Block.askRewrite_again rfl rfl
    exact Block.takeInspectionReset_eq (Block.endLoad_of_loading _ _ h ho) _ (by rw [again]) (by rw [again]) rfl

/-! ### The decoder apart -/

/-- The block with another mailbox decoder. -/
def Block.withDecoder (b : Block) (d : Decoder) : Block := { b with decoder := d }

@[simp] theorem Block.withDecoder_frame (b : Block) (d : Decoder) :
    (b.withDecoder d).capture = b.capture ∧ (b.withDecoder d).system = b.system
    ∧ (b.withDecoder d).memory = b.memory ∧ (b.withDecoder d).master = b.master ∧ (b.withDecoder d).decoder = d
    ∧ (b.withDecoder d).store = b.store ∧ (b.withDecoder d).tracker = b.tracker
    ∧ (b.withDecoder d).joints = b.joints ∧ (b.withDecoder d).tally = b.tally ∧ (b.withDecoder d).line = b.line
    ∧ (b.withDecoder d).writer = b.writer ∧ (b.withDecoder d).logs = b.logs
    ∧ (b.withDecoder d).blockSequence = b.blockSequence ∧ (b.withDecoder d).stamp = b.stamp := by
  simp only [Block.withDecoder, and_self]

variable (b : Block) (d : Decoder)

@[simp] theorem Block.withDecoder_self : b.withDecoder b.decoder = b := rfl

@[simp] theorem Block.withDecoder_withDecoder (e : Decoder) : (b.withDecoder d).withDecoder e = b.withDecoder e := rfl

theorem Block.askRewrite_withDecoder : (b.withDecoder d).askRewrite = b.askRewrite.withDecoder d := by
  rw [Block.askRewrite_of_master (b := b.withDecoder d) (c := b) rfl rfl]
  apply Block.eq_of_parts <;> simp

theorem Block.logError_withDecoder (e : LoggedError) : (b.withDecoder d).logError e = (b.logError e).withDecoder d := by
  simp only [Block.logError, Block.withDecoder_frame]
  split
  · exact Block.askRewrite_withDecoder ({ b with
      logs := b.logs.setLog e.code.source { b.logs.log e.code.source with held := some e } }.offerNotice _) d
  · exact Block.askRewrite_withDecoder ({ b with
      logs := b.logs.setLog e.code.source { b.logs.log e.code.source with held := some e } }.offerNotice _) d
  · exact Block.askRewrite_withDecoder { b with
      logs := b.logs.setLog e.code.source { b.logs.log e.code.source with overflow := true } } d
  · rfl

theorem Block.offerJoint_withDecoder (r : JointResult) :
    (b.withDecoder d).offerJoint r = (b.offerJoint r).withDecoder d := by
  simp only [Block.offerJoint, Block.withDecoder_frame]
  split_ifs <;> rfl

theorem Block.giveResult_withDecoder (r : JointResult) :
    (b.withDecoder d).giveResult r = (b.giveResult r).withDecoder d :=
  Block.offerJoint_withDecoder { b with tally := b.tally.add r } d r

theorem Block.judgeRecord_withDecoder (p : Program) (k : HandOver) (a : Accumulator) :
    (b.withDecoder d).judgeRecord p k a = (b.judgeRecord p k a).withDecoder d :=
  b.giveResult_withDecoder d _

theorem Block.judgeAbsent_withDecoder (p : Program) (c : Cause) (n : Nat) :
    (b.withDecoder d).judgeAbsent p c n = (b.judgeAbsent p c n).withDecoder d :=
  b.giveResult_withDecoder d _

theorem Block.judgeEach_withDecoder (p : Program) (k : Accumulator → HandOver) (l : List Accumulator) :
    l.foldl (fun b a => Block.judgeRecord p (k a) b a.closeGapRow) (b.withDecoder d) =
      (l.foldl (fun b a => Block.judgeRecord p (k a) b a.closeGapRow) b).withDecoder d := by
  induction l generalizing b with
  | nil => rfl
  | cons a l ih => rw [List.foldl_cons, Block.judgeRecord_withDecoder, ih, List.foldl_cons]

theorem Block.judgeAbsents_withDecoder (p : Program) (c : Cause) (l : List Nat) :
    l.foldl (Block.judgeAbsent p c) (b.withDecoder d) = (l.foldl (Block.judgeAbsent p c) b).withDecoder d := by
  induction l generalizing b with
  | nil => rfl
  | cons a l ih => rw [List.foldl_cons, Block.judgeAbsent_withDecoder, ih, List.foldl_cons]

theorem Block.admitOne_withDecoder (p : Program) (j : Joint) :
    (b.withDecoder d).admitOne p j = (b.admitOne p j).withDecoder d := by
  simp only [Block.admitOne, Block.withDecoder_frame]
  split
  · rfl
  · exact Block.judgeAbsent_withDecoder { b with joints := { b.joints with pointer := b.joints.pointer + 1 } } d _ _ _

theorem Block.admitRow_withDecoder (p : Program) (row : Nat) :
    (b.withDecoder d).admitRow p row = (b.admitRow p row).withDecoder d := by
  simp only [Block.admitRow, Block.withDecoder_frame]
  induction p.joints.drop b.joints.pointer generalizing b with
  | nil => rfl
  | cons j l ih =>
    unfold Block.admitJoints
    split
    · rw [Block.admitOne_withDecoder, ih]
    · rfl

theorem Block.notice_withDecoder (p : Program) (k : Nat) :
    (b.withDecoder d).notice p k = (b.notice p k).withDecoder d := by
  let leaves (a : Accumulator) := a.waitSet.contains k && a.complete b.tracker.progress
  let records := b.joints.records.map (Accumulator.noticeGap (p.header.lane k) (watermarkOf b.tracker.progress k))
  exact Block.judgeEach_withDecoder
    { b with joints := { b.joints with records := records.filter fun a => !leaves a } } d p
    (fun _ => .completed) (records.filter leaves)

theorem Block.closeFrame_withDecoder (kind : CloseKind) :
    (b.withDecoder d).closeFrame kind = (b.closeFrame kind).withDecoder d := by
  simp only [Block.closeFrame, Block.withDecoder_frame]
  split
  · exact Block.askRewrite_withDecoder
      { b with tracker := { b.tracker with state := .closing, closeKind := some kind } } d
  · rfl

theorem Block.enterRow_withDecoder (p : Program) (k : Nat) (q : LaneProgress) (g : Segment) :
    (b.withDecoder d).enterRow p k q g = (b.enterRow p k q g).withDecoder d := by
  unfold Block.enterRow
  split
  · rw [← Block.notice_withDecoder, ← Block.admitRow_withDecoder]
    rfl
  · exact b.admitRow_withDecoder d p g.row

theorem Block.classifySegment_withDecoder (p : Program) (u : Burst) (g : Segment) :
    (b.withDecoder d).classifySegment p u g = (b.classifySegment p u g).withDecoder d := by
  unfold Block.classifySegment
  split <;> rfl

theorem Block.normalTest_withDecoder (p : Program) :
    (b.withDecoder d).normalTest p = (b.normalTest p).withDecoder d := by
  have same : (b.withDecoder d).allLanesDone p = b.allLanesDone p := rfl
  unfold Block.normalTest
  rw [same]
  split
  · exact b.closeFrame_withDecoder d .normal
  · rfl

theorem Block.leaveSegment_withDecoder (p : Program) (k : Nat) (q : LaneProgress) (g : Segment) :
    (b.withDecoder d).leaveSegment p k q g = (b.leaveSegment p k q g).withDecoder d := by
  simp only [Block.leaveSegment]
  split
  · rw [← Block.normalTest_withDecoder, ← Block.notice_withDecoder]
    rfl
  · rfl

/-- A report that no action follows goes to its log alone (R127). -/
theorem Block.report_minor {e : LoggedError} (h : e.code = .cLaneRange ∨ e.code = .cOrder) :
    b.report e = b.logError e := by
  rcases h with h | h <;> simp [Block.report, Block.followReport, h]

theorem Block.handleSegment_withDecoder (p : Program) (u : Burst) (g : Segment) :
    (b.withDecoder d).handleSegment p u g = (b.handleSegment p u g).withDecoder d := by
  unfold Block.handleSegment
  simp only [Block.withDecoder_frame]
  split
  · rfl
  · split
    · rw [Block.orderBreak, Block.orderBreak, Block.report_minor _ (.inr rfl), Block.report_minor _ (.inr rfl)]
      exact Block.logError_withDecoder (b.mapRecords (·.markOrder g)) d _
    · rw [Block.enterRow_withDecoder, Block.classifySegment_withDecoder, Block.leaveSegment_withDecoder]

theorem Block.reportLaneRange_withDecoder (u : Burst) :
    (b.withDecoder d).reportLaneRange u = (b.reportLaneRange u).withDecoder d := by
  unfold Block.reportLaneRange
  split
  · rw [Block.report_minor _ (.inl rfl), Block.report_minor _ (.inl rfl)]
    exact b.logError_withDecoder d _
  · rfl

theorem Block.closeVerdicts_withDecoder : (b.withDecoder d).closeVerdicts = b.closeVerdicts.withDecoder d := by
  simp only [Block.closeVerdicts, Block.withDecoder_frame]
  split
  · next p _ =>
    have all : (b.withDecoder d).handOverAll p = (b.handOverAll p).withDecoder d :=
      Block.judgeEach_withDecoder { b with joints := { b.joints with records := [] } } d p
        (fun a => if a.complete b.tracker.progress then .completed else .forced) _
    rw [all]
    exact Block.judgeAbsents_withDecoder { b.handOverAll p with joints := { (b.handOverAll p).joints with
      pointer := max (b.handOverAll p).joints.pointer p.joints.length } } d p _ _
  · rfl

theorem Block.finishBoard_withDecoder : (b.withDecoder d).finishBoard = b.finishBoard.withDecoder d := by
  have result : ∀ serial late unmatched action, (b.withDecoder d).closeResult serial late unmatched action =
      b.closeResult serial late unmatched action := fun _ _ _ _ => rfl
  unfold Block.finishBoard
  simp only [Block.withDecoder_frame, result]
  split
  · rfl
  · split <;> rfl

theorem Block.returnToIdle_withDecoder : (b.withDecoder d).returnToIdle = b.returnToIdle.withDecoder d :=
  Block.askRewrite_withDecoder { b with tracker := { b.tracker with state := .idle, closeKind := none } } d

theorem Block.endLoad_withDecoder (x : LoadOutcome) (n : Nat) :
    (b.withDecoder d).endLoad x n = (b.endLoad x n).withDecoder d := by
  simp only [Block.endLoad, Block.withDecoder_frame]
  split
  · rfl
  · exact Block.askRewrite_withDecoder { b with
      store := b.store.endLoad x n, master := b.master.dropFetchWait } d

theorem Block.takeInspectionReset_withDecoder : (b.withDecoder d).takeInspectionReset =
    b.takeInspectionReset.withDecoder { d with resetPending := false, resetCause := .command } := by
  simp only [Block.takeInspectionReset, Block.endLoad_withDecoder, Block.withDecoder_frame,
    ← Block.askRewrite_withDecoder]
  rfl

/-- The reset that is taken has asked for its rewrite (R181). -/
theorem Block.takeInspectionReset_again : b.takeInspectionReset.askRewrite = b.takeInspectionReset :=
  Block.askRewrite_again rfl rfl

/-! ### The command (R192) -/

/-- The guard of R192 with the burst's segments written out. -/
theorem Block.holdsSegment_iff_exists (inHand : Bool) : b.holdsSegment inHand = true ↔
    b.tracker.state = .opened ∧ inHand = true
      ∧ ∃ burst seg rest, b.tracker.burst = some burst ∧ burst.segments = seg :: rest := by
  rw [Block.holdsSegment_iff]
  rcases b.tracker.burst with _ | burst
  · simp
  · rcases hs : burst.segments <;> simp [hs, and_comm]

/-- INSPECTION_RESET taken at once (R192). -/
theorem Block.commandWrite_inspectionReset (inHand : Bool) (hp : b.decoder.resetPending = false)
    (hg : ¬ (b.tracker.state = .closing ∨ b.holdsSegment inHand)) :
    b.commandWrite 9 [] inHand = (b.withDecoder (b.decoder.took 9 [] .done)).takeInspectionReset := by
  have decided : (b.copied 9 []).decideCommand 9 inHand = ((b.copied 9 []).takeInspectionReset, .done) := by
    have pending : (b.copied 9 []).decoder.resetPending = false := (b.copied_resetPending 9 []).trans hp
    have guard : ¬ ((b.copied 9 []).tracker.state = .closing ∨ (b.copied 9 []).holdsSegment inHand) := by
      simpa only [Block.holdsSegment, Block.copied_frame] using hg
    simp only [Block.decideCommand, Block.inspectionReset, pending, Bool.false_eq_true, if_false, if_neg guard]
  have again := b.takeInspectionReset_again
  have taken : (b.copied 9 []).takeInspectionReset = b.takeInspectionReset.withDecoder
      { (b.copied 9 []).decoder with resetPending := false, resetCause := .command } :=
    b.takeInspectionReset_withDecoder (b.copied 9 []).decoder
  rw [b.commandWrite_asked _ inHand (by decide) (by decide) decided (d := b.takeInspectionReset)
      (by rw [again, taken]; rfl) (by rw [again, taken]; rfl), taken, Block.takeInspectionReset_withDecoder]
  simp only [Block.withDecoder, Block.copied, Decoder.took]

/-- INSPECTION_RESET that waits (R192). -/
theorem Block.commandWrite_resetWaits (inHand : Bool) (hp : b.decoder.resetPending = false)
    (hg : b.tracker.state = .closing ∨ b.holdsSegment inHand) : b.commandWrite 9 [] inHand =
      { b.askRewrite with decoder := { b.decoder.took 9 [] .started with resetPending := true } } := by
  have decided : (b.copied 9 []).decideCommand 9 inHand =
      ((b.copied 9 []).withDecoder { (b.copied 9 []).decoder with resetPending := true }, .started) := by
    have pending : (b.copied 9 []).decoder.resetPending = false := (b.copied_resetPending 9 []).trans hp
    have guard : (b.copied 9 []).tracker.state = .closing ∨ (b.copied 9 []).holdsSegment inHand := by
      simpa only [Block.holdsSegment, Block.copied_frame] using hg
    simp only [Block.decideCommand, Block.inspectionReset, pending, Bool.false_eq_true, if_false, if_pos guard]
    rfl
  rw [b.commandWrite_decided 9 [] inHand (by decide) (by decide) _ _ decided (.inl (by simp))]
  apply Block.eq_of_parts <;> simp [Block.withDecoder, Block.copied, Decoder.took]

/-! ### The reset that waits (R44, R193) -/

/-- A SEGMENT without the reset that may wait for its end (R33). -/
def Block.segmentWork (burst : Burst) (p : Program) : Block :=
  match burst.segments with
  | [] => (b.reportLaneRange burst).setSegments burst []
  | seg :: rest => ((b.reportLaneRange burst).handleSegment p burst seg).setSegments burst rest

theorem Block.segment_eq {burst : Burst} {p : Program} (hb : b.tracker.burst = some burst)
    (hp : b.store.activeProgram = some p) : b.segment = (b.segmentWork burst p).resetAfterSegment := by
  rcases hs : burst.segments with _ | ⟨seg, rest⟩ <;> simp only [Block.segment, Block.segmentWork, hb, hp, hs]

theorem Block.segmentWork_withDecoder (burst : Burst) (p : Program) :
    (b.withDecoder d).segmentWork burst p = (b.segmentWork burst p).withDecoder d := by
  unfold Block.segmentWork
  rw [Block.reportLaneRange_withDecoder]
  split
  · rfl
  · rw [Block.handleSegment_withDecoder]
    rfl

/-- A CLOSING without the reset that may wait for its end (R41). -/
def Block.closingDone : Block := b.closeVerdicts.finishBoard.returnToIdle

theorem Block.closingWork_eq (hs : b.tracker.state = .closing) (hb : b.tracker.burst = none) :
    b.closingWork = b.closingDone.resetAfterClosing := by
  simp only [Block.closingWork, Block.closingDone, hs, hb]

theorem Block.closingDone_withDecoder : (b.withDecoder d).closingDone = b.closingDone.withDecoder d := by
  simp only [Block.closingDone, Block.closeVerdicts_withDecoder, Block.finishBoard_withDecoder,
    Block.returnToIdle_withDecoder]

/-- The block with the flag of a pending inspection reset as given. -/
def Block.flagged (f : Bool) : Block := b.withDecoder { b.decoder with resetPending := f }

/-- The flag put back where it was set. -/
theorem Block.flagged_again (h : b.decoder.resetPending = true) : (b.flagged false).flagged true = b := by
  rcases b with ⟨_, _, _, _, ⟨_, _, _, _, _, _, pending, _⟩, _, _, _, _, _, _, _, _, _⟩
  obtain rfl : pending = true := h
  rfl

/-- The reset that is taken is the same whether the flag was set or not (R193). -/
theorem Block.takeInspectionReset_flagged (f : Bool) : (b.flagged f).takeInspectionReset = b.takeInspectionReset := by
  rw [Block.flagged, Block.takeInspectionReset_withDecoder]
  exact (b.takeInspectionReset_withDecoder b.decoder).symm

theorem Block.segmentWork_decoder (burst : Burst) (p : Program) : (b.segmentWork burst p).decoder = b.decoder := by
  have h := congrArg Block.decoder (b.segmentWork_withDecoder b.decoder burst p)
  exact h

theorem Block.closingDone_decoder : b.closingDone.decoder = b.decoder := by
  have h := congrArg Block.decoder (b.closingDone_withDecoder b.decoder)
  exact h

/-- A SEGMENT with the flag clear (R33). -/
theorem Block.segment_flagged {burst : Burst} {p : Program} (hb : b.tracker.burst = some burst)
    (hp : b.store.activeProgram = some p) : (b.flagged false).segment = (b.segmentWork burst p).flagged false := by
  rw [Block.segment_eq (b.flagged false) hb hp, Block.flagged, Block.segmentWork_withDecoder, Block.flagged,
    Block.segmentWork_decoder]
  rfl

/-- A CLOSING with the flag clear (R41). -/
theorem Block.closingWork_flagged (hs : b.tracker.state = .closing) (hb : b.tracker.burst = none) :
    (b.flagged false).closingWork = b.closingDone.flagged false := by
  rw [Block.closingWork_eq (b.flagged false) hs hb, Block.flagged, Block.closingDone_withDecoder, Block.flagged,
    Block.closingDone_decoder]
  rfl

/-- A SEGMENT with the flag set, which leaves the frame OPEN (R193). -/
theorem Block.segment_takes {burst : Burst} {p : Program} (hf : b.decoder.resetPending = true)
    (hb : b.tracker.burst = some burst) (hp : b.store.activeProgram = some p)
    (opened : (b.segmentWork burst p).tracker.state = .opened) :
    b.segment = (b.segmentWork burst p).takeInspectionReset := by
  simp [b.segment_eq hb hp, Block.resetAfterSegment, b.segmentWork_decoder, hf, opened]

/-- A SEGMENT with the flag set, which leaves the frame CLOSING or IDLE (R193). -/
theorem Block.segment_waits {burst : Burst} {p : Program} (hb : b.tracker.burst = some burst)
    (hp : b.store.activeProgram = some p) (other : (b.segmentWork burst p).tracker.state ≠ .opened) :
    b.segment = b.segmentWork burst p := by
  simp [b.segment_eq hb hp, Block.resetAfterSegment, other]

/-- A CLOSING with the flag set (R44). -/
theorem Block.closingWork_takes (hf : b.decoder.resetPending = true) (hs : b.tracker.state = .closing)
    (hb : b.tracker.burst = none) : b.closingWork = b.closingDone.takeInspectionReset := by
  simp [b.closingWork_eq hs hb, Block.resetAfterClosing, b.closingDone_decoder, hf]

/-- Settles O41. -/
theorem inspectionResetClearsTheInspection : Obligations.InspectionResetClearsTheInspection := by
  unfold Obligations.InspectionResetClearsTheInspection
  refine ⟨fun s inHand hp => ⟨fun hc hs => ?_, fun h => ?_⟩, fun s hf hb ha => ?_, fun s hf hs hb => ?_⟩
  · have guard : ¬ (s.block.tracker.state = .closing ∨ s.block.holdsSegment inHand) :=
      not_or.2 ⟨hc, fun h => hs ((s.block.holdsSegment_iff_exists inHand).1 h)⟩
    refine ⟨_, Block.takeInspectionReset_takes (s.block.withDecoder (s.block.decoder.took 9 [] .done)), ?_⟩
    show Host.Outcome.next (s.withBlock (s.block.commandWrite 9 [] inHand)) = _
    rw [s.block.commandWrite_inspectionReset inHand hp guard]
  · show Host.Outcome.next (s.withBlock (s.block.commandWrite 9 [] inHand)) = _
    rw [s.block.commandWrite_resetWaits inHand hp (h.imp_right (s.block.holdsSegment_iff_exists inHand).2)]
  · obtain ⟨burst, hb⟩ := Option.ne_none_iff_exists'.1 hb
    obtain ⟨p, ha⟩ := Option.ne_none_iff_exists'.1 ha
    refine ⟨s.withBlock ((s.block.segmentWork burst p).flagged false), ?_, fun opened => ?_, fun other => ?_⟩
    · show Host.Outcome.next (s.withBlock (s.block.flagged false).segment) = _
      rw [s.block.segment_flagged hb ha]
    · refine ⟨_, Block.takeInspectionReset_takes _, ?_⟩
      show Host.Outcome.next (s.withBlock s.block.segment) = Host.Outcome.next (s.withBlock
        ((s.block.segmentWork burst p).flagged false).takeInspectionReset)
      rw [Block.takeInspectionReset_flagged, s.block.segment_takes hf hb ha opened]
    · show Host.Outcome.next (s.withBlock s.block.segment) = Host.Outcome.next (s.withBlock
        (((s.block.segmentWork burst p).flagged false).flagged true))
      rw [s.block.segment_waits hb ha other,
        Block.flagged_again _ ((congrArg _ (s.block.segmentWork_decoder _ _)).trans hf)]
  · refine ⟨s.withBlock (s.block.closingDone.flagged false), _, ?_, Block.takeInspectionReset_takes _, ?_⟩
    · show Host.Outcome.next (s.withBlock (s.block.flagged false).closingWork) = _
      rw [s.block.closingWork_flagged hs hb]
    · show Host.Outcome.next (s.withBlock s.block.closingWork) = Host.Outcome.next (s.withBlock
        (s.block.closingDone.flagged false).takeInspectionReset)
      rw [Block.takeInspectionReset_flagged, s.block.closingWork_takes hf hs hb]

end Sys2Proof.Machine
end

section
/-! SUPPORT. The requests outstanding at memory, and how an internal request ends (O27, O29). -/

namespace Sys2Proof.Machine

/-! ### The table (R159, R162) -/

/-- The tags of the other entries, when no tag stands twice in the table. -/
theorem tags_apart {before after : List TableEntry} {e : TableEntry}
    (h : ((before ++ e :: after).map (·.tag)).Nodup) : ∀ x ∈ before ++ after, x.tag ≠ e.tag := by
  have hd : (e.tag :: (before ++ after).map (·.tag)).Nodup :=
    (((List.perm_middle (a := e)).map fun x : TableEntry => x.tag).nodup_iff).1 h
  intro x hx he
  exact (List.nodup_cons.1 hd).1 (he ▸ List.mem_map_of_mem hx)

/-- The entry found under its tag. -/
theorem MemoryPort.entry_eq {m : MemoryPort} {before after : List TableEntry} {e : TableEntry}
    (ht : m.table = before ++ e :: after) (hn : (m.table.map (·.tag)).Nodup) : m.entry e.tag = some e := by
  have apart := tags_apart (ht ▸ hn)
  have skip : before.find? (·.tag == e.tag) = none :=
    List.find?_eq_none.2 fun x hx => by simpa using apart x (List.mem_append_left _ hx)
  simp [MemoryPort.entry, ht, List.find?_append, skip]

/-- The table without the entry of a tag, after a map that keeps the tags. -/
theorem filter_tag {before after : List TableEntry} {e : TableEntry}
    (hn : ((before ++ e :: after).map (·.tag)).Nodup) {f : TableEntry → TableEntry} (hf : ∀ x, (f x).tag = x.tag) :
    ((before ++ e :: after).map f).filter (·.tag != e.tag) = before.map f ++ after.map f := by
  have apart := tags_apart hn
  have keeps : ∀ l : List TableEntry, (∀ x ∈ l, x.tag ≠ e.tag) → (l.map f).filter (·.tag != e.tag) = l.map f := by
    intro l hl
    refine List.filter_eq_self.2 fun y hy => ?_
    obtain ⟨x, hx, rfl⟩ := List.mem_map.1 hy
    simpa [hf] using hl x hx
  rw [List.map_append, List.map_cons, List.filter_append, List.filter_cons,
    keeps before fun x hx => apart x (List.mem_append_left _ hx),
    keeps after fun x hx => apart x (List.mem_append_right _ hx)]
  simp [hf]

/-- The block with the entry of a tag removed. -/
theorem Block.retire_eq {b : Block} {before after : List TableEntry} {e : TableEntry}
    (ht : b.memory.table = before ++ e :: after) (hn : (b.memory.table.map (·.tag)).Nodup) :
    b.retire e.tag = { b with memory := { b.memory with table := before ++ after } } := by
  have h := filter_tag (f := id) (ht ▸ hn) fun _ => rfl
  simp only [List.map_id] at h
  rw [Block.retire, ht, h]

/-- What is left of a timer passes, and its entry is removed (R140; log entry 3). -/
theorem Block.elapse_retire {b : Block} {before after : List TableEntry} {e : TableEntry}
    (ht : b.memory.table = before ++ e :: after) (hn : (b.memory.table.map (·.tag)).Nodup) :
    (b.elapse e.timer).retire e.tag =
      let aged := fun (x : TableEntry) => { x with timer := x.timer - e.timer }
      { b with
        memory := { b.memory with table := before.map aged ++ after.map aged }
        line := { b.line with driver :=
          match b.line.driver with
          | .dead line left pending => .dead line (left - e.timer) pending
          | d => d } } := by
  have h := filter_tag (f := fun (x : TableEntry) => { x with timer := x.timer - e.timer }) (ht ▸ hn) fun _ => rfl
  have line : (match b.line.driver with
      | .dead line left pending => { b.line with driver := .dead line (left - e.timer) pending }
      | _ => b.line : Line) = { b.line with driver :=
        match b.line.driver with
        | .dead line left pending => .dead line (left - e.timer) pending
        | d => d } := by
    rcases b.line with ⟨_, _, _, _, _, _, _, _, _, _ | _ | _, _⟩ <;> rfl
  simp only [Block.elapse, Block.retire, ht, h]
  exact congrArg (fun l => ({ b with
    memory := { b.memory with table := before.map _ ++ after.map _ }, line := l } : Block)) line

/-! ### Reports that no action follows (R126, R127) -/

/-- A report on the memory path or on the consumer index goes to its log alone (R127). -/
theorem Block.report_plain (b : Block) {e : LoggedError}
    (h : e.code = .mTimeout ∨ e.code = .mOwnError ∨ e.code = .sConsumerRange) : b.report e = b.logError e := by
  rcases h with h | h | h <;> simp only [Block.report, Block.followReport, h]

/-- A log offers the record writer a notice at most (R126). -/
theorem Block.logError_writer (b : Block) (e : LoggedError) :
    ∃ q n, (b.logError e).writer = { b.writer with queue := q, drops := n } := by
  have offered : ∀ (w : RecordWriter) r, ∃ q n, w.offer r = { w with queue := q, drops := n } := by
    intro w r
    unfold RecordWriter.offer
    split_ifs
    · exact ⟨_, _, rfl⟩
    · exact ⟨_, _, rfl⟩
  simp only [Block.logError]
  split
  · simpa only [Block.askRewrite_frame, Block.offerNotice] using offered b.writer (.notice _)
  · simpa only [Block.askRewrite_frame, Block.offerNotice] using offered b.writer (.notice _)
  · exact ⟨b.writer.queue, b.writer.drops, by simp only [Block.askRewrite_frame]⟩
  · exact ⟨_, _, rfl⟩

theorem Block.logError_port (b : Block) (e : LoggedError) (i : PortId) : (b.logError e).port i = b.port i := by
  cases i <;> simp [Block.port]

/-! ### The end of a slot write (R175 to R179) -/

/-- The level of RING_IRQ with a ring (R179). -/
theorem RecordWriter.irqLevel_of_ring {w : RecordWriter} {ring : Ring} (h : w.ring = some ring) :
    w.irqLevel = (ring.irqOn && decide (w.producer ≠ w.consumer)) := by
  simp only [RecordWriter.irqLevel, h, bne, Bool.beq_eq_decide_eq, ne_eq, decide_not]

/-- RING_IRQ re-evaluated after a report stays, where it had its level. -/
theorem Block.updateIrq_logError {b : Block} (e : LoggedError) (h : b.writer.updateIrq = b.writer) :
    (b.logError e).writer.updateIrq = (b.logError e).writer := by
  obtain ⟨q, n, hw⟩ := b.logError_writer e
  rw [hw]
  have level : ({ b.writer with queue := q, drops := n } : RecordWriter).irqLevel = b.writer.ringIrq :=
    congrArg RecordWriter.ringIrq h
  simp only [RecordWriter.updateIrq, level]

/-- The record writer once a slot write has ended, with this consumer index (R175, R178, R179). -/
def RecordWriter.slotEnded (w : RecordWriter) (consumer : Counter) : RecordWriter :=
  ({ w with slotWrite := none, heldUpdate := none, consumer := consumer } : RecordWriter).updateIrq

theorem RecordWriter.slotEnded_eq {w : RecordWriter} {ring : Ring} (h : w.ring = some ring) (consumer : Counter) :
    w.slotEnded consumer = { w with
      slotWrite := none
      heldUpdate := none
      consumer := consumer
      ringIrq := ring.irqOn && decide (w.producer ≠ consumer) } := by
  have level := RecordWriter.irqLevel_of_ring
    (w := { w with slotWrite := none, heldUpdate := none, consumer := consumer }) h
  simp only [RecordWriter.slotEnded, RecordWriter.updateIrq, level]

/-- A consumer value applied, with a ring (R177, R179). -/
theorem Block.applyConsumer_of_ring {b : Block} {ring : Ring} (hr : b.writer.ring = some ring) (u : ConsumerUpdate) :
    b.applyConsumer u = if (b.writer.producer - u.value).toNat ≤ ring.size
      then { b with writer := ({ b.writer with consumer := u.value } : RecordWriter).updateIrq }
      else ({ b with
        writer := ({ b.writer with consumer := b.writer.producer } : RecordWriter).updateIrq } : Block).report
        ⟨.sConsumerRange, .minor, u.master, u.addr, 0⟩ := by
  simp only [Block.applyConsumer, hr]

/-- How a slot write ends, with a ring (R175 to R179). -/
theorem Block.endSlotWrite_eq {b : Block} {ring : Ring} (hr : b.writer.ring = some ring) :
    b.endSlotWrite = b.slotWriteEnded ring := by
  simp only [Block.slotWriteEnded, ← RecordWriter.slotEnded_eq hr]
  rcases hu : b.writer.heldUpdate with _ | u
  · simp only [Block.endSlotWrite, Block.applyHeld, hu, RecordWriter.slotEnded]
  · have applied := Block.applyConsumer_of_ring
      (b := { b with writer := { b.writer with slotWrite := none, heldUpdate := none } }) hr u
    simp only [Block.endSlotWrite, Block.applyHeld, hu]
    rw [applied]
    by_cases inRange : (b.writer.producer - u.value).toNat ≤ ring.size
    · simp only [if_pos inRange]
      rfl
    · simp only [if_neg inRange]
      rw [Block.report_plain _ (.inr (.inr rfl)), Block.updateIrq_logError]
      · rfl
      · rfl

/-- A slot write in progress has failed (R176). -/
theorem Block.slotFailed_eq {b : Block} {ring : Ring} {n : Nat} (hn : b.writer.slotWrite = some n)
    (hr : b.writer.ring = some ring) : b.slotFailed n = ({ b with writer := { b.writer with
      queue := b.writer.queue.tail, drops := min 4294967295 (b.writer.drops + 1) } } : Block).slotWriteEnded ring := by
  rw [Block.slotFailed, if_pos hn]
  exact Block.endSlotWrite_eq hr

/-! ### The end of a fetch read (R12, R13, R17) -/

/-- The read of the load in progress, in whichever bank it is. -/
theorem Block.loadOf_eq {b : Block} {i : BankId} {l : Load} {read : FetchRead} (h : b.store.bank i = .loading l)
    (ho : (b.store.bank i.other).load? = none) (hr : l.outstanding = some read) :
    b.loadOf read.stamp = some (l, read) := by
  simp only [Block.loadOf, (ProgramStore.loadingBank_of_loading h ho).2, hr, if_true]

/-- No load in progress has this read outstanding. -/
theorem Block.loadOf_eq_none {b : Block} {n : Nat}
    (h : ∀ i l read, b.store.bank i = .loading l → l.outstanding = some read → read.stamp ≠ n) : b.loadOf n = none := by
  unfold Block.loadOf
  split
  · next l hl =>
    obtain ⟨i, -, hi⟩ := ProgramStore.bank_of_load? hl
    split
    · next read hr => exact if_neg (h i l read hi hr)
    · rfl
  · rfl

/-- A fetch read of the load in progress has failed (R12). -/
theorem Block.fetchFailed_eq {b : Block} {i : BankId} {l : Load} {read : FetchRead} (h : b.store.bank i = .loading l)
    (ho : (b.store.bank i.other).load? = none) (hr : l.outstanding = some read) :
    b.fetchFailed read.stamp = b.loadEnded i .fetchError (l.failIndex read.offset) := by
  simp only [Block.fetchFailed, Block.loadOf_eq h ho hr, Block.endLoad_of_loading _ _ h ho]

theorem Block.fetchFailed_of_ended {b : Block} {n : Nat}
    (h : ∀ i l read, b.store.bank i = .loading l → l.outstanding = some read → read.stamp ≠ n) :
    b.fetchFailed n = b := by
  simp only [Block.fetchFailed, Block.loadOf_eq_none h]

/-- A response timer's expiry, up to what the owner does with it (R140). -/
theorem execResponseTimerExpiry_eq {s : State} {before after : List TableEntry} {e : TableEntry}
    (ht : s.block.memory.table = before ++ e :: after) (hn : (s.block.memory.table.map (·.tag)).Nodup) :
    exec (.responseTimerExpiry e.tag) s =
      .next (s.withBlock (((s.block.elapse e.timer).retire e.tag).timeOut e)) := by
  show Host.Outcome.next (s.withBlock (s.block.responseTimerExpiry e.tag)) = _
  simp only [Block.responseTimerExpiry, MemoryPort.entry_eq ht hn]

theorem TableEntry.zeroData_eq (e : TableEntry) :
    e.zeroData = if e.direction = .read then List.replicate (beatCount e.beats) 0 else [] := by
  rcases h : e.direction <;> simp [TableEntry.zeroData, h]

/-- The request of a port is answered ERROR when its timer expires, a read with zeros (R140). -/
theorem Block.timeOut_upstream (b : Block) {e : TableEntry} {i : PortId} {stamp : Nat}
    (ho : e.owner = .upstream i stamp) :
    b.timeOut e = (b.report (e.error .mTimeout .degraded)).setPort i
      ((b.port i).answer stamp .error (if e.direction = .read then List.replicate (beatCount e.beats) 0 else [])) := by
  have plain := b.report_plain (e := e.error .mTimeout .degraded) (.inl rfl)
  simp only [Block.timeOut, ho, Block.answerPort, TableEntry.zeroData_eq, plain, Block.logError_port]

/-- An internal request whose timer expires has failed (R140, R141). -/
theorem Block.timeOut_internal (b : Block) {e : TableEntry} (ho : ∀ i stamp, e.owner ≠ .upstream i stamp) :
    b.timeOut e = (b.report (e.error .mTimeout .degraded)).ownerFails e.owner := by
  unfold Block.timeOut
  split
  · next i stamp h => exact absurd h (ho i stamp)
  · rfl

/-- Settles O27. -/
theorem expiredTimerRetiresTheRequest : Obligations.ExpiredTimerRetiresTheRequest := by
  unfold Obligations.ExpiredTimerRetiresTheRequest
  intro s before after e ht hn aged retired reported result
  have result_eq : result = .next (s.withBlock (retired.timeOut e)) :=
    (execResponseTimerExpiry_eq ht hn).trans
      (congrArg (fun b => Host.Outcome.next (s.withBlock (b.timeOut e))) (Block.elapse_retire ht hn))
  have fails : (∀ i stamp, e.owner ≠ .upstream i stamp) → result = .next (s.withBlock (reported.ownerFails e.owner)) :=
    fun ho => result_eq.trans (by rw [Block.timeOut_internal _ ho]; rfl)
  have plain : reported = retired.logError ⟨.mTimeout, .degraded, e.master, e.addr, 0⟩ :=
    Block.report_plain _ (.inl rfl)
  have store : reported.store = s.block.store := retired.report_frame _ |>.2.2.1
  refine ⟨fun i stamp ho => ?_, fun ho => ?_, fun n ho => ⟨fun i l read hl hother hr hst => ?_, fun hne => ?_⟩,
    fun n ho => ?_⟩
  · rw [result_eq, retired.timeOut_upstream ho]
    rfl
  · rcases ho with ho | ho <;> rw [fails (by simp [ho]), ho] <;> rfl
  · rw [fails (by simp [ho]), ho, ← hst]
    rw [← store] at hl hother
    exact congrArg (fun b => Host.Outcome.next (s.withBlock b)) (Block.fetchFailed_eq hl hother hr)
  · rw [fails (by simp [ho]), ho]
    rw [← store] at hne
    exact congrArg (fun b => Host.Outcome.next (s.withBlock b)) (Block.fetchFailed_of_ended hne)
  · obtain ⟨q, k, hw⟩ := retired.logError_writer ⟨.mTimeout, .degraded, e.master, e.addr, 0⟩
    have slot : reported.writer.slotWrite = s.block.writer.slotWrite := by rw [plain, hw]
    have ring : reported.writer.ring = s.block.writer.ring := by rw [plain, hw]
    refine ⟨fun r hs hr => ?_, fun hs => ?_⟩
    · rw [fails (by simp [ho]), ho]
      exact congrArg (fun b => Host.Outcome.next (s.withBlock b)) (Block.slotFailed_eq (slot.trans hs) (ring.trans hr))
    · rw [fails (by simp [ho]), ho]
      exact congrArg (fun b => Host.Outcome.next (s.withBlock b)) (if_neg fun h => hs (slot.symm.trans h))

/-! ### The data of a fetch read -/

/-- The data of a response to a read are its beats, when it brings as many as were asked for (R146). -/
theorem TableEntry.dataOf_read {e : TableEntry} {data : List Beat} (hd : e.direction = .read)
    (hl : data.length = beatCount e.beats) : e.dataOf data = data := by
  simp only [TableEntry.dataOf, hd, ← hl]
  refine List.ext_getElem (by simp) fun k h1 h2 => ?_
  simp [List.getElem?_eq_getElem h2]

/-- The data of the load in progress reach its validation (R12). -/
theorem Block.fetchDone_eq {b : Block} {i : BankId} {l : Load} {read : FetchRead} (h : b.store.bank i = .loading l)
    (ho : (b.store.bank i.other).load? = none) (hr : l.outstanding = some read) (data : List Beat) :
    b.fetchDone read.stamp data = b.takeValidation
      ({ l with received := l.received ++ data.flatMap beatBytes, outstanding := none } : Load).validate := by
  simp only [Block.fetchDone, Block.loadOf_eq h ho hr]

theorem Block.fetchDone_of_ended {b : Block} {n : Nat} {data : List Beat}
    (h : ∀ i l read, b.store.bank i = .loading l → l.outstanding = some read → read.stamp ≠ n) :
    b.fetchDone n data = b := by
  simp only [Block.fetchDone, Block.loadOf_eq_none h]

/-- The overlap of a program's frame window, written out (R17). -/
theorem Block.windowOverlap_iff (b : Block) (p : Program) : b.windowOverlap p = true ↔
    p.header.window.overlaps b.decoder.window = true
      ∨ ∃ ring, b.writer.ring = some ring ∧ p.header.window.overlaps ring.range = true := by
  unfold Block.windowOverlap
  rcases b.writer.ring with _ | ring <;> simp

/-- What validation says takes effect on the bank that is LOADING (R11, R13, R17). -/
theorem Block.completeLoad_ready {b : Block} {i : BankId} {l : Load} (h : b.store.bank i = .loading l)
    (ho : (b.store.bank i.other).load? = none) {p : Program} (hp : b.windowOverlap p = false) :
    b.completeLoad p = { b.askRewrite with store := { b.store.setBank i (.ready p) with
      record := ⟨b.store.record.target, some .loaded, 0⟩ } } := by
  simp only [Block.completeLoad, hp, ProgramStore.finishLoad, (ProgramStore.loadingBank_of_loading h ho).1]
  have asked := Block.askRewrite_congr (c := b) (b := { b with store := { b.store.setBank i (.ready p) with
    record := ⟨b.store.record.target, some .loaded, 0⟩ } }) rfl rfl
  apply Block.eq_of_parts
  case h4 => exact asked.1
  case h14 => exact asked.2
  all_goals simp

/-- Where an ERROR to a fetch read fails, with the subtraction of R12 taken apart. -/
theorem Load.failIndex_eq (l : Load) (offset : Nat) : l.failIndex offset = (match l.header with
    | none => 0
    | some h =>
      if offset < 64 then 0
      else if offset < 64 + 16 * h.recipeCount then (offset - 64) / 16
      else (offset - 64 - 16 * h.recipeCount) / 24) := by
  rcases h : l.header <;> simp only [Load.failIndex, h, Nat.sub_sub]

/-- A response, up to what the owner does with it (R162). -/
theorem execMemoryResponse_eq {s : State} {before after : List TableEntry} {e : TableEntry} (r : Response)
    (data : List Beat) (ht : s.block.memory.table = before ++ e :: after)
    (hn : (s.block.memory.table.map (·.tag)).Nodup) : exec (.memoryResponse e.tag r data) s = .next (s.withBlock
      (({ s.block with memory := { s.block.memory with table := before ++ after } } : Block).route e r data)) := by
  show Host.Outcome.next (s.withBlock (s.block.memoryResponse e.tag r data)) = _
  simp only [Block.memoryResponse, MemoryPort.entry_eq ht hn, Block.retire_eq ht hn]

/-- Settles O29. -/
theorem fetchReadEndsAsItsResponse : Obligations.FetchReadEndsAsItsResponse := by
  unfold Obligations.FetchReadEndsAsItsResponse
  intro s data before after e n ht hn ho removed reported
  have store : reported.store = s.block.store := removed.report_frame _ |>.2.2.1
  have okay : exec (.memoryResponse e.tag .okay data) s =
      .next (s.withBlock (removed.fetchDone n (e.dataOf data))) := by
    rw [execMemoryResponse_eq .okay data ht hn]
    simp only [Block.route, ho]
    rfl
  have error : exec (.memoryResponse e.tag .error data) s = .next (s.withBlock (reported.fetchFailed n)) := by
    rw [execMemoryResponse_eq .error data ht hn]
    simp only [Block.route, ho]
    rfl
  refine ⟨fun hne => ⟨?_, ?_⟩, fun i l read hl hother hr hst => ⟨?_, l.failIndex_eq _, fun hd hlen => ?_⟩⟩
  · rw [okay]
    exact congrArg (fun b => Host.Outcome.next (s.withBlock b)) (Block.fetchDone_of_ended (b := removed) hne)
  · rw [← store] at hne
    rw [error, Block.fetchFailed_of_ended hne]
  · rw [← store] at hl hother
    rw [error, ← hst, Block.fetchFailed_eq hl hother hr]
  · intro validated result
    have result_eq : result = .next (s.withBlock (removed.takeValidation validated)) := by
      refine okay.trans (congrArg (fun b => Host.Outcome.next (s.withBlock b)) ?_)
      rw [TableEntry.dataOf_read hd hlen, ← hst]
      exact Block.fetchDone_eq (b := removed) hl hother hr data
    have takes : ∀ {t}, removed.takeValidation validated = t → result = .next (s.withBlock t) := fun h => h ▸ result_eq
    refine ⟨fun more hv => takes ?_, fun x k hv => takes ?_, fun p hv => ⟨fun hm => takes ?_, fun hm => takes ?_⟩⟩
    · rw [hv]
      simp only [Block.takeValidation, ProgramStore.setLoad, (ProgramStore.loadingBank_of_loading hl hother).1, removed]
    · rw [hv]
      exact Block.endLoad_of_loading (b := removed) x k hl hother
    · rw [hv]
      exact Block.completeLoad_ready (b := removed) hl hother
        (by simpa using fun h => hm ((removed.windowOverlap_iff p).1 h))
    · rw [hv]
      exact (if_pos ((removed.windowOverlap_iff p).2 hm)).trans (Block.endLoad_of_loading (b := removed) _ _ hl hother)

end Sys2Proof.Machine
end

section
/-! SUPPORT. What the loader and the record writer hand over to the internal master, at once or after a wait (O31). -/

namespace Sys2Proof.Machine

/-! ### The next read of a load (R11, R200) -/

/-- The number of beats of a load's next read: the four of the header, then 16 or what is left of the image. -/
def Load.beatsDue (l : Load) : Nat :=
  match l.header with
  | none => 4
  | some h => min 16 ((64 + 16 * h.recipeCount + 24 * h.jointCount - l.nextOffset + 15) / 16)

theorem Load.nextBeats_eq (l : Load) : l.nextBeats = BitVec.ofNat 4 (l.beatsDue - 1) := by
  unfold Load.nextBeats Load.beatsDue
  rcases l.header <;> rfl

theorem Load.beatCount_nextBeats {l : Load} (h : 1 ≤ l.beatsDue) : beatCount l.nextBeats = l.beatsDue := by
  have most : l.beatsDue ≤ 16 := by
    unfold Load.beatsDue
    split
    · decide
    · exact Nat.min_le_left _ _
  rw [Load.nextBeats_eq, beatCount, BitVec.toNat_ofNat, Nat.mod_eq_of_lt (by omega)]
  omega

theorem Load.nextAddress_eq {l : Load} (h : l.address.toNat + l.nextOffset < 2 ^ 40) :
    l.nextAddress = BitVec.ofNat 40 (l.address.toNat + l.nextOffset) :=
  if_pos h

/-! ### What is due -/

/-- The load in this bank may hand over its next read, but for the room (R11). -/
def Block.FetchDue (b : Block) (i : BankId) (l : Load) : Prop :=
  b.store.bank i = .loading l ∧ (b.store.bank i.other).load? = none ∧ l.outstanding = none
    ∧ l.address.toNat + l.nextOffset < 2 ^ 40 ∧ 1 ≤ l.beatsDue

/-- The slot write of the head record may be handed over, but for the room (R174). -/
def Block.WriteDue (b : Block) (ring : Ring) (r : RingRecord) : Prop :=
  b.writer.ring = some ring ∧ b.writer.queue.head? = some r ∧ b.writer.slotWrite = none
    ∧ (b.writer.producer - b.writer.consumer).toNat < ring.size ∧ ∀ v, .producerWord v ∉ b.master.waiters

theorem Block.FetchDue.dueLoad {b : Block} {i : BankId} {l : Load} (h : b.FetchDue i l) : b.dueLoad = some l := by
  obtain ⟨hl, ho, hn, -⟩ := h
  simp only [Block.dueLoad, (ProgramStore.loadingBank_of_loading hl ho).2, hn, Option.isNone_none, if_true]

/-- Without a load that has no read outstanding nothing is due. -/
theorem Block.dueLoad_eq_none {b : Block} (h : ∀ i l, b.store.bank i = .loading l → l.outstanding ≠ none) :
    b.dueLoad = none := by
  unfold Block.dueLoad
  split
  · next l hl =>
    obtain ⟨i, -, hi⟩ := ProgramStore.bank_of_load? hl
    exact if_neg (by simpa using h i l hi)
  · rfl

theorem any_isProducerWord (l : List Waiter) : l.any Waiter.isProducerWord = false ↔ ∀ v, .producerWord v ∉ l := by
  rw [List.any_eq_false]
  refine ⟨fun h v hv => h _ hv rfl, fun h w hw => ?_⟩
  cases w with
  | producerWord v => exact absurd hw (h v)
  | fetch | slotWrite | statusBlock => exact Bool.false_ne_true

/-- The slot write found due is the one that R174 describes. -/
theorem Block.dueSlot_iff (b : Block) (ring : Ring) (r : RingRecord) :
    b.dueSlot = some (ring, r) ↔ b.WriteDue ring r := by
  unfold Block.dueSlot Block.WriteDue
  rcases b.writer.ring with _ | ring'
  · simp
  rcases b.writer.queue with _ | ⟨r', rest⟩
  · simp
  rcases b.writer.slotWrite with _ | n
  · simp only [← any_isProducerWord, RecordWriter.occupancy, List.head?_cons, Option.some.injEq,
      Option.ite_none_right_eq_some, Bool.and_eq_true, Bool.not_eq_true', Prod.mk.injEq, true_and]
    constructor
    · rintro ⟨⟨hp, ho⟩, rfl, rfl⟩
      exact ⟨rfl, rfl, of_decide_eq_true ho, hp⟩
    · rintro ⟨rfl, rfl, ho, hp⟩
      exact ⟨⟨hp, decide_eq_true ho⟩, rfl, rfl⟩
  · simp

theorem Block.dueSlot_eq_none {b : Block} (h : ∀ ring r, ¬ b.WriteDue ring r) : b.dueSlot = none :=
  Option.eq_none_iff_forall_ne_some.2 fun ⟨ring, r⟩ hd => h ring r ((b.dueSlot_iff ring r).1 hd)

/-! ### Handing over -/

/-- The loader's next read handed over (R11, R157). -/
theorem Block.handFetch_eq {b : Block} {i : BankId} {l : Load} (h : b.FetchDue i l) : b.handFetch l =
    { b.enqueue (.fetch (BitVec.ofNat 40 (l.address.toNat + l.nextOffset)) (BitVec.ofNat 4 (l.beatsDue - 1))) with
      store := b.store.setBank i (.loading { l with
        outstanding := some ⟨b.stamp, l.nextOffset⟩, nextOffset := l.nextOffset + 16 * l.beatsDue }) } := by
  obtain ⟨hl, ho, -, ha, hb⟩ := h
  simp only [Block.handFetch, ProgramStore.setLoad, (ProgramStore.loadingBank_of_loading hl ho).1,
    Load.beatCount_nextBeats hb, Load.nextAddress_eq ha]
  rw [Load.nextBeats_eq]

theorem Block.mayHandOver_iff (b : Block) :
    b.mayHandOver = true ↔ b.master.queue.length < 8 ∧ b.master.waiters = [] := by
  simp only [Block.mayHandOver, Block.masterHasRoom, Bool.and_eq_true, decide_eq_true_eq, List.isEmpty_iff]
  rfl

/-- Without room, or behind other owners, an owner waits. -/
theorem Block.mayHandOver_of_full {b : Block} (h : 8 ≤ b.master.queue.length ∨ b.master.waiters ≠ []) :
    ¬ b.mayHandOver = true := by
  rw [Block.mayHandOver_iff]
  rintro ⟨hq, hw⟩
  exact h.elim (fun h => absurd hq (by omega)) fun h => h hw

/-- FETCH_READ_ISSUE with room and with no owner waiting (R11). -/
theorem Block.fetchReadIssue_hands {b : Block} {i : BankId} {l : Load} (h : b.FetchDue i l)
    (hq : b.master.queue.length < 8) (hw : b.master.waiters = []) : b.fetchReadIssue = b.handFetch l := by
  simp [Block.fetchReadIssue, h.dueLoad, (b.mayHandOver_iff).2 ⟨hq, hw⟩, hw]

theorem Block.fetchReadIssue_waits {b : Block} {i : BankId} {l : Load} (h : b.FetchDue i l)
    (hf : 8 ≤ b.master.queue.length ∨ b.master.waiters ≠ []) (hw : .fetch ∉ b.master.waiters) :
    b.fetchReadIssue = b.wait .fetch := by
  simp [Block.fetchReadIssue, h.dueLoad, Block.mayHandOver_of_full hf, hw]

/-- RING_SLOT_WRITE with room and with no owner waiting (R174). -/
theorem Block.ringSlotWrite_hands {b : Block} {ring : Ring} {r : RingRecord} (h : b.WriteDue ring r)
    (hq : b.master.queue.length < 8) (hw : b.master.waiters = []) : b.ringSlotWrite = b.handSlot ring r := by
  simp [Block.ringSlotWrite, (b.dueSlot_iff ring r).2 h, (b.mayHandOver_iff).2 ⟨hq, hw⟩, hw]

theorem Block.ringSlotWrite_waits {b : Block} {ring : Ring} {r : RingRecord} (h : b.WriteDue ring r)
    (hf : 8 ≤ b.master.queue.length ∨ b.master.waiters ≠ []) (hw : .slotWrite ∉ b.master.waiters) :
    b.ringSlotWrite = b.wait .slotWrite := by
  simp [Block.ringSlotWrite, (b.dueSlot_iff ring r).2 h, Block.mayHandOver_of_full hf, hw]

/-- INTERNAL_HANDOVER with no place free or no owner waiting (R157). -/
theorem execInternalHandover_stop {s : State} (h : s.block.master.waiters = [] ∨ 8 ≤ s.block.master.queue.length) :
    exec .internalHandover s = .next s :=
  congrArg (fun b => Host.Outcome.next (s.withBlock b)) (Block.internalHandover_stop
    (h.imp_right fun hq => decide_eq_false (not_lt.2 hq)))

/-- INTERNAL_HANDOVER goes on from what the owner that has waited longest leaves (R157). -/
theorem execInternalHandover_next {s : State} {w : Waiter} {rest : List Waiter} {t : Block}
    (hw : s.block.master.waiters = w :: rest) (hq : s.block.master.queue.length < 8)
    (ht : ({ s.block with master := { s.block.master with waiters := rest } } : Block).handWaiter w = t) :
    exec .internalHandover s = exec .internalHandover (s.withBlock t)
      ∧ (t.master.waiters = [] ∨ 8 ≤ t.master.queue.length → exec .internalHandover s = .next (s.withBlock t)) := by
  have next : exec .internalHandover s = exec .internalHandover (s.withBlock t) := by
    show Host.Outcome.next (s.withBlock s.block.internalHandover) = Host.Outcome.next (s.withBlock t.internalHandover)
    rw [Block.internalHandover_next hw (decide_eq_true hq), ht]
  exact ⟨next, fun h => next.trans (execInternalHandover_stop (s := s.withBlock t) h)⟩

/-- Settles O31. -/
theorem ownersHandOverInTheOrderOfTheirWaits : Obligations.OwnersHandOverInTheOrderOfTheirWaits := by
  unfold Obligations.OwnersHandOverInTheOrderOfTheirWaits
  refine ⟨fun s i l due => ⟨fun hq hw => ?_, fun hf hw => ?_⟩, fun s ring r due => ⟨fun hq hw => ?_, fun hf hw => ?_⟩,
    fun s h => execInternalHandover_stop h, fun s w rest hw hq => ⟨?_, fun v => ?_, ?_, ?_⟩⟩
  · exact congrArg (fun b => Host.Outcome.next (s.withBlock b))
      ((Block.fetchReadIssue_hands due hq hw).trans (Block.handFetch_eq due))
  · exact congrArg (fun b => Host.Outcome.next (s.withBlock b)) (Block.fetchReadIssue_waits due hf hw)
  · exact congrArg (fun b => Host.Outcome.next (s.withBlock b)) (Block.ringSlotWrite_hands due hq hw)
  · exact congrArg (fun b => Host.Outcome.next (s.withBlock b)) (Block.ringSlotWrite_waits due hf hw)
  · rintro rfl
    exact execInternalHandover_next hw hq rfl
  · rintro rfl
    exact execInternalHandover_next hw hq rfl
  · rintro rfl
    refine ⟨fun i l due => execInternalHandover_next hw hq ?_, fun none => execInternalHandover_next hw hq ?_⟩
    · simp only [Block.handWaiter, Block.FetchDue.dueLoad due]
      exact Block.handFetch_eq due
    · simp only [Block.handWaiter, Block.dueLoad_eq_none none]
  · rintro rfl
    refine ⟨fun ring r due => execInternalHandover_next hw hq ?_, fun none => execInternalHandover_next hw hq ?_⟩
    · simp only [Block.handWaiter, (Block.dueSlot_iff _ ring r).2 due]
      rfl
    · simp only [Block.handWaiter, Block.dueSlot_eq_none none]

end Sys2Proof.Machine
end

section
/-! SUPPORT. The validation of a program image, item by item (R13 to R16; O30). -/

namespace Sys2Proof.Machine

/-! ### The header (R14, R15) -/

/-- The header once its bytes stand complete: its checks in their order. -/
theorem Load.validate_header {l : Load} (hl : l.header = none) (hlen : 64 ≤ l.received.length) : l.validate =
    if checkFormat l.received = true then
      if checkGeometry l.received = true then
        if checkLanes l.received = true then
          .more { l with header := some (parseHeader l.received), received := l.received.drop 64 }
        else .failed .lanes 0
      else .failed .geometry 0
    else .failed .format 0 := by
  simp only [Load.validate, hl, if_neg (not_lt.2 hlen), Bool.not_eq_true', ← Bool.not_eq_true, ite_not]

/-- A field of a word's width is held whole. -/
theorem ofNat_fieldAt (bytes : List Byte) (offset size w : Nat) (hw : w = 8 * size) :
    (BitVec.ofNat w (fieldAt bytes offset size)).toNat = fieldAt bytes offset size := by
  subst hw
  have h := fieldAt_lt bytes offset size
  rw [BitVec.toNat_ofNat, Nat.mod_eq_of_lt]
  rwa [pow_mul]

/-- The lanes of the header, as the bytes give them (R15, R200). -/
theorem parseHeader_lane (bytes : List Byte) {k : Nat} (hk : k < fieldAt bytes 24 1) :
    ∃ lane, (parseHeader bytes).lanes[k]? = some lane ∧ lane.master.toNat = fieldAt bytes (32 + 8 * k) 1
      ∧ lane.first = fieldAt bytes (32 + 8 * k + 2) 2 ∧ lane.last = fieldAt bytes (32 + 8 * k + 4) 2 :=
  ⟨parseLane bytes k, by simp [parseHeader, hk], ofNat_fieldAt bytes _ 1 8 rfl, rfl, rfl⟩

/-! ### The items (R16) -/

/-- Without a complete recipe the load goes on. -/
theorem Load.validate_fewRecipe {l : Load} {h : Header} (hl : l.header = some h)
    (hr : l.recipes.length < h.recipeCount) (hlen : l.received.length < 16) : l.validate = .more l := by
  rw [l.validate_of_header h hl _ le_rfl, validateItems, if_pos hr, if_pos hlen]

/-- The next recipe, once it stands complete. -/
theorem Load.validate_recipe {l : Load} {h : Header} (hl : l.header = some h)
    (hr : l.recipes.length < h.recipeCount) (hlen : 16 ≤ l.received.length) : l.validate =
    if (parseRecipe l.received).inRange = true then
      ({ l with recipes := l.recipes ++ [parseRecipe l.received], received := l.received.drop 16 } : Load).validate
    else .failed .recipe l.recipes.length := by
  rw [l.validate_of_header h hl _ le_rfl, validateItems, if_pos hr, if_neg (not_lt.2 hlen)]
  rw [Load.validate_of_header { l with
      recipes := l.recipes ++ [parseRecipe l.received], received := l.received.drop 16 } h hl (l.received.length / 16)
    (by simp only [List.length_drop]; omega)]

/-- Without a complete joint the load goes on. -/
theorem Load.validate_fewJoint {l : Load} {h : Header} (hl : l.header = some h)
    (hr : h.recipeCount ≤ l.recipes.length) (hlen : l.received.length < 24) : l.validate = .more l := by
  rw [l.validate_of_header h hl _ le_rfl, validateItems, if_neg (not_lt.2 hr), if_pos hlen]

/-- The next joint, once it stands complete. -/
theorem Load.validate_joint {l : Load} {h : Header} (hl : l.header = some h)
    (hr : h.recipeCount ≤ l.recipes.length) (hlen : 24 ≤ l.received.length) : l.validate =
    match checkJoint h l.joints.getLast? l.received with
    | .error e => .failed e l.joints.length
    | .ok j =>
      if l.joints.length + 1 < h.jointCount then
        ({ l with joints := l.joints ++ [j], received := l.received.drop 24 } : Load).validate
      else .passed ⟨h, l.recipes, l.joints ++ [j]⟩ := by
  rw [l.validate_of_header h hl _ le_rfl, validateItems, if_neg (not_lt.2 hr), if_neg (not_lt.2 hlen)]
  rcases checkJoint h l.joints.getLast? l.received with e | j
  · rfl
  · simp only [List.length_append, List.length_singleton]
    rw [Load.validate_of_header { l with joints := l.joints ++ [j], received := l.received.drop 24 } h hl
      (l.received.length / 16) (by simp only [List.length_drop]; omega)]

/-! ### The checks of a joint, in their order (R16) -/

/-- The joints before this one allow its place (R16). -/
def inJointOrder (previous : Option Joint) (region : Rect) : Prop :=
  ∀ j, previous = some j → j.region.y0 ≤ region.y0

/-- The gap that a joint entry's bytes hold, whether its flag is set or not (R200). -/
def gapOf (bytes : List Byte) : Rect :=
  ⟨fieldAt bytes 14 2, fieldAt bytes 16 2, fieldAt bytes 18 2, fieldAt bytes 20 2⟩

theorem parseGap_eq (bytes : List Byte) :
    parseGap bytes = if fieldAt bytes 12 1 % 2 = 1 then some (gapOf bytes) else none := rfl

theorem checkJoint_order {h : Header} {previous : Option Joint} {bytes : List Byte}
    (ho : ¬ inJointOrder previous (parseRegion bytes)) : checkJoint h previous bytes = .error .jointOrder := by
  rcases previous with _ | j
  · exact absurd (fun j hj => by simp at hj) ho
  · have : ¬ j.region.y0 ≤ (parseRegion bytes).y0 := fun hj => ho fun j' hj' => by cases hj'; exact hj
    simp [checkJoint, this]

/-- A joint whose place is in order is checked as a first one is (R16). -/
theorem checkJoint_first {h : Header} {previous : Option Joint} {bytes : List Byte}
    (ho : inJointOrder previous (parseRegion bytes)) : checkJoint h previous bytes = checkJoint h none bytes := by
  rcases previous with _ | j
  · rfl
  · simp only [checkJoint, decide_eq_true (ho j rfl)]

/-- A joint whose place is in order goes on to the next checks (R16). -/
theorem checkJoint_ordered {h : Header} {previous : Option Joint} {bytes : List Byte}
    (ho : inJointOrder previous (parseRegion bytes)) : checkJoint h previous bytes =
      if checkRegion h (parseRegion bytes) (fieldAt bytes 10 1) = true then
        match weightOfCode (fieldAt bytes 11 1) with
        | none => .error .jointRange
        | some weight =>
          if fieldAt bytes 12 1 % 2 = 1 → checkGap h (parseRegion bytes) (gapOf bytes) = true then
            .ok ⟨BitVec.ofNat 16 (fieldAt bytes 0 2), parseRegion bytes, fieldAt bytes 10 1, weight,
              if fieldAt bytes 12 1 % 2 = 1 then some (gapOf bytes) else none⟩
          else .error .gap
      else .error .jointRange := by
  rw [checkJoint_first ho]
  simp only [checkJoint, Bool.not_true, Bool.false_eq_true, if_false, Bool.not_eq_true', ← Bool.not_eq_true, ite_not,
    parseGap_eq]
  rcases weightOfCode (fieldAt bytes 11 1) with _ | weight
  · rfl
  · by_cases hg : fieldAt bytes 12 1 % 2 = 1 <;> simp [hg]

theorem weightOfCode_eq_none {code : Nat} (h : ¬ (code = 1 ∨ code = 2)) : weightOfCode code = none := by
  obtain ⟨h1, h2⟩ := not_or.1 h
  rw [weightOfCode, if_neg h1, if_neg h2]

theorem weightOfCode_eq {code : Nat} (h : code = 1 ∨ code = 2) :
    weightOfCode code = some (if code = 1 then .critical else .advisory) := by
  rcases h with rfl | rfl <;> rfl

/-- The weight code is checked with the region (R16). -/
theorem checkJoint_range {h : Header} {previous : Option Joint} {bytes : List Byte}
    (ho : inJointOrder previous (parseRegion bytes))
    (hr : ¬ (checkRegion h (parseRegion bytes) (fieldAt bytes 10 1) = true
      ∧ (fieldAt bytes 11 1 = 1 ∨ fieldAt bytes 11 1 = 2))) : checkJoint h previous bytes = .error .jointRange := by
  rw [checkJoint_ordered ho]
  by_cases hc : checkRegion h (parseRegion bytes) (fieldAt bytes 10 1) = true
  · rw [if_pos hc, weightOfCode_eq_none fun hw => hr ⟨hc, hw⟩]
  · rw [if_neg hc]

/-- The gap is checked last (R16). -/
theorem checkJoint_inRange {h : Header} {previous : Option Joint} {bytes : List Byte}
    (ho : inJointOrder previous (parseRegion bytes))
    (hr : checkRegion h (parseRegion bytes) (fieldAt bytes 10 1) = true)
    (hw : fieldAt bytes 11 1 = 1 ∨ fieldAt bytes 11 1 = 2) : checkJoint h previous bytes =
      if fieldAt bytes 12 1 % 2 = 1 → checkGap h (parseRegion bytes) (gapOf bytes) = true then
        .ok ⟨BitVec.ofNat 16 (fieldAt bytes 0 2), parseRegion bytes, fieldAt bytes 10 1,
          if fieldAt bytes 11 1 = 1 then .critical else .advisory,
          if fieldAt bytes 12 1 % 2 = 1 then some (gapOf bytes) else none⟩
      else .error .gap := by
  rw [checkJoint_ordered ho, if_pos hr, weightOfCode_eq hw]

/-- Settles O30. -/
theorem imageChecksComeInOrder : Obligations.ImageChecksComeInOrder := by
  unfold Obligations.ImageChecksComeInOrder
  refine ⟨fun l hl hlen => ?_, fun l h hl hr => ⟨Load.validate_fewRecipe hl hr, fun hlen => ?_⟩,
    fun l h hl hr => ⟨Load.validate_fewJoint hl hr, fun hlen => ?_⟩, fieldAt_eq_sum⟩
  · have validated := Load.validate_header hl hlen
    intro recipes joints format base width height pitch geometry count first last master lanes
    have format_iff : checkFormat l.received = true ↔ format := checkFormat_iff _
    have geometry_iff : checkGeometry l.received = true ↔ geometry := checkGeometry_iff _
    have lanes_iff : checkLanes l.received = true ↔ lanes := checkLanes_iff _
    refine ⟨fun hf => ?_, fun hf hg => ?_, fun hf hg hn => ?_, fun hf hg hn => ?_⟩
    · rw [validated, if_neg (mt format_iff.1 hf)]
    · rw [validated, if_pos (format_iff.2 hf), if_neg (mt geometry_iff.1 hg)]
    · rw [validated, if_pos (format_iff.2 hf), if_pos (geometry_iff.2 hg), if_neg (mt lanes_iff.1 hn)]
    · refine ⟨parseHeader l.received, ?_, ofNat_fieldAt l.received 4 4 32 rfl,
        parseHeader_base (geometry_iff.2 hg), rfl, rfl, rfl, rfl, rfl, ?_, fun k hk => parseHeader_lane l.received hk⟩
      · rw [validated, if_pos (format_iff.2 hf), if_pos (geometry_iff.2 hg), if_pos (lanes_iff.2 hn)]
      · simp only [parseHeader, List.length_map, List.length_range, count]
  · have validated := Load.validate_recipe hl hr hlen
    simp only [parseRecipe_inRange] at validated
    exact ⟨fun hb => validated.trans (if_neg hb), fun hg =>
      ⟨parseRecipe l.received, validated.trans (if_pos hg), rfl, rfl, rfl, rfl, rfl, rfl, rfl, rfl, rfl⟩⟩
  · have validated := Load.validate_joint hl hr hlen
    intro field region gap recipe weight inOrder inRange hasGap gapGood
    have range_iff : (checkRegion h region recipe = true ∧ (weight = 1 ∨ weight = 2)) ↔ inRange := by
      simp only [checkRegion_iff, and_assoc, inRange]
    have gap_iff : checkGap h region gap = true ↔ gapGood := checkGap_iff h region gap
    refine ⟨fun ho => ?_, fun ho hr => ?_, fun ho hr hg hb => ?_, fun ho hr hg => ?_⟩
    · rw [validated, checkJoint_order ho]
    · rw [validated, checkJoint_range ho (mt range_iff.1 hr)]
    · obtain ⟨hc, hw⟩ := range_iff.2 hr
      rw [validated, checkJoint_inRange ho hc hw, if_neg fun h => hb (gap_iff.1 (h hg))]
    · obtain ⟨hc, hw⟩ := range_iff.2 hr
      have good : fieldAt l.received 12 1 % 2 = 1 →
          checkGap h (parseRegion l.received) (gapOf l.received) = true := fun h => gap_iff.2 (hg h)
      rw [checkJoint_inRange ho hc hw, if_pos good] at validated
      exact ⟨fun hmore => validated.trans (if_pos hmore), fun hlast => validated.trans (if_neg (not_lt.2 hlast))⟩

end Sys2Proof.Machine
end

section
/-! SUPPORT. The pixels of a burst, its row pieces and its segments (R26 to R28). -/

namespace Sys2Proof.Machine

/-! ### Image positions (R26) -/

/-- The pixel of the four bytes at place `j` of beat `n`, with its row, from its own address (R26). -/
def pixelAt (h : Header) (w : BufferedWrite) (t : TakenBeat) (n j : Nat) : Nat × Pixel :=
  let address := w.addr.toNat / 16 * 16 + 16 * n + 4 * j
  let on := fun (byte : Nat) => (t.strobes.getLsbD (4 * j + byte) && decide (w.addr.toNat ≤ address + byte)).toNat
  ((address - h.base.toNat) / h.pitch,
    ⟨(address - h.base.toNat) % h.pitch / 4, t.data.extractLsb' (32 * j) 32,
      BitVec.ofNat 4 (on 0 + 2 * on 1 + 4 * on 2 + 8 * on 3)⟩)

/-- A strobe as the tracker inspects it: clear below the write's address (R26). -/
theorem inspectedStrobes_getLsbD (w : BufferedWrite) (n : Nat) (s : BeatBits) {i : Nat} (hi : i < 16) :
    (inspectedStrobes w n s).getLsbD i =
      (s.getLsbD i && decide (w.addr.toNat ≤ w.addr.toNat / 16 * 16 + 16 * n + i)) := by
  unfold inspectedStrobes
  split_ifs with hn
  · subst hn
    have : decide (w.addr.toNat ≤ w.addr.toNat / 16 * 16 + 16 * 0 + i) = !decide (i < w.addr.toNat % 16) := by
      rw [← decide_not]
      exact decide_eq_decide.2 (by omega)
    rw [this]
    simp only [BitVec.getLsbD_and, BitVec.getLsbD_shiftLeft, BitVec.getLsbD_allOnes, hi, decide_true, Bool.true_and]
    by_cases h : i < w.addr.toNat % 16
    · simp [h]
    · simp [h, show i - w.addr.toNat % 16 < 16 by omega]
  · have : w.addr.toNat ≤ w.addr.toNat / 16 * 16 + 16 * n + i := by omega
    simp [this]

/-- Four bits as the number they are. -/
theorem ofNat_bits (x : BitVec 4) : BitVec.ofNat 4 ((x.getLsbD 0).toNat + 2 * (x.getLsbD 1).toNat
    + 4 * (x.getLsbD 2).toNat + 8 * (x.getLsbD 3).toNat) = x := by
  revert x
  decide

/-- A place inside a beat: neither its row nor the beat's place in the row changes (R26). -/
theorem beat_div_mod (m q j : Nat) (hj : j < 4) : (16 * m + 4 * j) / (16 * q) = 16 * m / (16 * q)
    ∧ (16 * m + 4 * j) % (16 * q) / 4 = 16 * m % (16 * q) / 4 + j := by
  have hd : (16 * m + 4 * j) / (16 * q) = m / q := by
    rw [← Nat.div_div_eq_div_mul]
    congr 1
    omega
  have hd0 : 16 * m / (16 * q) = m / q := Nat.mul_div_mul_left m q (by decide)
  refine ⟨hd.trans hd0.symm, ?_⟩
  have h1 := Nat.div_add_mod (16 * m + 4 * j) (16 * q)
  have h2 := Nat.div_add_mod (16 * m) (16 * q)
  rw [hd, Nat.mul_assoc] at h1
  rw [hd0, Nat.mul_assoc] at h2
  omega

/-- The pixels of a beat, each from its own address (R26). -/
theorem beatPixels_eq {h : Header} {w : BufferedWrite} (hb : h.base.toNat % 16 = 0) (hp : h.pitch % 16 = 0)
    (ha : h.base.toNat ≤ w.addr.toNat) (t : TakenBeat) (n : Nat) :
    let offset := w.addr.toNat / 16 * 16 + 16 * n - h.base.toNat
    (beatPixels (offset % h.pitch / 4) t.data (inspectedStrobes w n t.strobes)).map
      (fun p => (offset / h.pitch, p)) = (List.range 4).map (pixelAt h w t n) := by
  intro offset
  obtain ⟨q, hq⟩ : ∃ q, h.pitch = 16 * q := ⟨h.pitch / 16, by omega⟩
  obtain ⟨m, hm⟩ : ∃ m, offset = 16 * m := ⟨offset / 16, by omega⟩
  simp only [beatPixels, List.map_map]
  refine List.map_congr_left fun j hj => ?_
  have hj : j < 4 := List.mem_range.1 hj
  have address : w.addr.toNat / 16 * 16 + 16 * n + 4 * j - h.base.toNat = 16 * m + 4 * j := by omega
  obtain ⟨row, column⟩ := beat_div_mod m q j hj
  have strobes := ofNat_bits ((inspectedStrobes w n t.strobes).extractLsb' (4 * j) 4)
  simp only [BitVec.getLsbD_extractLsb', show 0 < 4 from by decide, show 1 < 4 from by decide,
    show 2 < 4 from by decide, show 3 < 4 from by decide, decide_true, Bool.true_and] at strobes
  rw [inspectedStrobes_getLsbD _ _ _ (by omega), inspectedStrobes_getLsbD _ _ _ (by omega),
    inspectedStrobes_getLsbD _ _ _ (by omega), inspectedStrobes_getLsbD _ _ _ (by omega)] at strobes
  simp only [← Nat.add_assoc] at strobes
  simp only [Function.comp_apply, pixelAt, address, hm, hq, row, column, ← strobes]

/-- The pixels of a burst, beat by beat, each from its own address (R26). -/
theorem positionedPixels_eq {h : Header} {w : BufferedWrite} (hb : h.base.toNat % 16 = 0) (hp : h.pitch % 16 = 0)
    (ha : h.base.toNat ≤ w.addr.toNat) (l : List TakenBeat) (n : Nat) : positionedPixels h w n l =
      (l.zipIdx n).flatMap fun x => (List.range 4).map (pixelAt h w x.1 x.2) := by
  induction l generalizing n with
  | nil => rfl
  | cons t l ih =>
    rw [positionedPixels, ih, List.zipIdx_cons, List.flatMap_cons]
    exact congrArg (· ++ _) (beatPixels_eq hb hp ha t n)

/-- The rows of a burst's pixels do not descend (R26). -/
theorem positionedPixels_sorted (h : Header) (w : BufferedWrite) (l : List TakenBeat) (n : Nat) :
    (positionedPixels h w n l).Pairwise (fun x y => x.1 ≤ y.1)
      ∧ ∀ x ∈ positionedPixels h w n l, (w.addr.toNat / 16 * 16 + 16 * n - h.base.toNat) / h.pitch ≤ x.1 := by
  induction l generalizing n with
  | nil => exact ⟨List.Pairwise.nil, by simp [positionedPixels]⟩
  | cons t l ih =>
    obtain ⟨sorted, above⟩ := ih (n + 1)
    have step : (w.addr.toNat / 16 * 16 + 16 * n - h.base.toNat) / h.pitch ≤
        (w.addr.toNat / 16 * 16 + 16 * (n + 1) - h.base.toNat) / h.pitch := Nat.div_le_div_right (by omega)
    have later := fun x hx => step.trans (above x hx)
    rw [positionedPixels]
    simp only [List.pairwise_append, List.mem_append, List.mem_map]
    refine ⟨⟨List.pairwise_map.2 (List.pairwise_of_forall fun _ _ => le_rfl), sorted, ?_⟩, ?_⟩
    · rintro _ ⟨p, -, rfl⟩ y hy
      exact later y hy
    · rintro x (⟨p, -, rfl⟩ | hx)
      · exact le_rfl
      · exact later x hx

/-! ### Row pieces (R27) -/

/-- The piece of a row, if the pixels reach it. -/
def pieceOf (l : List (Nat × Pixel)) (row : Nat) : Option (Nat × List Pixel) :=
  match (l.filter fun x => decide (x.1 = row)).map (·.2) with
  | [] => none
  | p :: more => some (row, p :: more)

theorem pieceOf_row {l : List (Nat × Pixel)} {row : Nat} {piece : Nat × List Pixel} (h : pieceOf l row = some piece) :
    piece.1 = row := by
  unfold pieceOf at h
  split at h
  · simp at h
  · exact (congrArg Prod.fst (Option.some.inj h)).symm

/-- A pixel of another row does not change the piece of a row. -/
theorem pieceOf_cons_of_ne {x : Nat × Pixel} {l : List (Nat × Pixel)} {row : Nat} (h : x.1 ≠ row) :
    pieceOf (x :: l) row = pieceOf l row := by
  simp only [pieceOf, List.filter_cons, decide_eq_false h, Bool.false_eq_true, if_false]

/-- A pixel joins the piece of its row. -/
theorem pieceOf_cons_self (row : Nat) (p : Pixel) (l : List (Nat × Pixel)) : pieceOf ((row, p) :: l) row =
    some (row, p :: ((pieceOf l row).map (·.2)).getD []) := by
  simp only [pieceOf, List.filter_cons, decide_true, if_true, List.map_cons]
  split
  · next h => rw [h]; rfl
  · next q more h => rw [h]; rfl

/-- A row before every pixel has no piece. -/
theorem pieceOf_eq_none {l : List (Nat × Pixel)} {row : Nat} (h : ∀ x ∈ l, x.1 ≠ row) : pieceOf l row = none := by
  have : (l.filter fun x => decide (x.1 = row)) = [] := List.filter_eq_nil_iff.2 fun x hx => by simpa using h x hx
  simp only [pieceOf, this, List.map_nil]

/-- The pieces of pixels from a row on: that row's, and those of the rows behind it. -/
theorem pieces_from {n row : Nat} (hr : row < n) {l : List (Nat × Pixel)} (hl : ∀ x ∈ l, row ≤ x.1) :
    (List.range n).filterMap (pieceOf l) =
      (pieceOf l row).toList ++ (List.range' (row + 1) (n - row - 1)).filterMap (pieceOf l) := by
  have split : List.range n = List.range' 0 row ++ row :: List.range' (row + 1) (n - row - 1) := by
    have h := List.range'_append_1 (s := 0) (m := row) (n := n - row - 1 + 1)
    rw [show row + (n - row - 1 + 1) = n by omega, Nat.zero_add, List.range'_succ] at h
    rw [List.range_eq_range', ← h]
  have before : (List.range' 0 row).filterMap (pieceOf l) = [] := by
    refine List.filterMap_eq_nil_iff.2 fun r hr => pieceOf_eq_none fun x hx => ?_
    have := hl x hx
    have := (List.mem_range'_1.1 hr).2
    omega
  rw [split, List.filterMap_append, before, List.nil_append, List.filterMap_cons]
  rcases pieceOf l row <;> rfl

/-- Pixels whose rows do not descend have a piece per row, in the order of the rows (R27). -/
theorem rowPieces_eq {n : Nat} {l : List (Nat × Pixel)} (hs : l.Pairwise fun x y => x.1 ≤ y.1)
    (hn : ∀ x ∈ l, x.1 < n) : rowPieces l = (List.range n).filterMap (pieceOf l) := by
  induction l with
  | nil => simp [rowPieces, pieceOf]
  | cons x l ih =>
    obtain ⟨row, p⟩ := x
    obtain ⟨first, hs⟩ := List.pairwise_cons.1 hs
    have hrow : row < n := hn (row, p) List.mem_cons_self
    rw [rowPieces, ih hs fun x hx => hn x (List.mem_cons_of_mem _ hx), pieces_from hrow first,
      pieces_from hrow (l := (row, p) :: l) (by simpa using fun r q hq => first (r, q) hq), pieceOf_cons_self]
    have behind : (List.range' (row + 1) (n - row - 1)).filterMap (pieceOf ((row, p) :: l)) =
        (List.range' (row + 1) (n - row - 1)).filterMap (pieceOf l) :=
      List.filterMap_congr fun r hr => pieceOf_cons_of_ne (by have := (List.mem_range'_1.1 hr).1; simp; omega)
    rw [behind]
    rcases hp : pieceOf l row with _ | piece
    · rcases ht : (List.range' (row + 1) (n - row - 1)).filterMap (pieceOf l) with _ | ⟨piece, more⟩
      · rfl
      · obtain ⟨r, hr, hpiece⟩ := List.mem_filterMap.1 (ht ▸ List.mem_cons_self (a := piece) (l := more))
        have : piece.1 ≠ row := by
          rw [pieceOf_row hpiece]
          have := (List.mem_range'_1.1 hr).1
          omega
        simp [this]
    · obtain rfl := pieceOf_row hp
      simp

/-- Gathering pixels into pieces loses none. -/
theorem rowPieces_any (f : Pixel → Bool) (l : List (Nat × Pixel)) :
    ((rowPieces l).any fun piece => piece.2.any f) = l.any fun x => f x.2 := by
  induction l with
  | nil => rfl
  | cons x l ih =>
    obtain ⟨row, p⟩ := x
    rw [List.any_cons, ← ih, rowPieces]
    rcases rowPieces l with _ | ⟨⟨r, ps⟩, more⟩
    · simp
    · simp only
      split_ifs <;> simp [Bool.or_assoc]

/-! ### Segments (R28) -/

/-- The segment that a burst's pixels leave in a row of the frame, if any (R28). -/
def segmentOf (lane : Lane) (l : List (Nat × Pixel)) (row : Nat) : Option Segment :=
  match ((l.filter fun x => decide (lane.first ≤ x.2.column ∧ x.2.column ≤ lane.last)).filter
    fun x => decide (x.1 = row)).map (·.2) with
  | [] => none
  | p :: more => some ⟨row, p.column, ((p :: more).getLastD p).column, p :: more⟩

/-- A row's piece clipped to the lane is the row's segment (R28). -/
theorem clipPiece_pieceOf (lane : Lane) (l : List (Nat × Pixel)) (row : Nat) :
    (pieceOf l row).bind (clipPiece lane) = segmentOf lane l row := by
  have clipped : ((l.filter fun x => decide (lane.first ≤ x.2.column ∧ x.2.column ≤ lane.last)).filter
      fun x => decide (x.1 = row)).map (·.2) =
      ((l.filter fun x => decide (x.1 = row)).map (·.2)).filter fun p => lane.holds p.column := by
    rw [List.filter_comm, List.filter_map]
    congr 1
    exact List.filter_congr fun x _ => by simp [Lane.holds]
  unfold segmentOf pieceOf
  rw [clipped]
  split
  · next h => rw [h]; rfl
  · next q more h =>
    simp only [Option.bind_some, clipPiece, h]
    rcases List.filter (fun p : Pixel => lane.holds p.column) (q :: more) with _ | ⟨p, ps⟩
    · rfl
    · simp [List.getLast_eq_getLastD, List.getLast?_cons]

/-- The pixels of a burst inside the frame, padding and rows beyond it dropped (R27). -/
def framePixels (h : Header) (w : BufferedWrite) : List (Nat × Pixel) :=
  (w.taken.zipIdx.flatMap fun x => (List.range 4).map (pixelAt h w x.1 x.2)).filter fun x =>
    decide (x.1 < h.height ∧ x.2.column < h.width)

theorem burstPieces_eq {h : Header} {w : BufferedWrite} (hb : h.base.toNat % 16 = 0) (hp : h.pitch % 16 = 0)
    (ha : h.base.toNat ≤ w.addr.toNat) : burstPieces h w = rowPieces (framePixels h w) ∧
      rowPieces (framePixels h w) = (List.range h.height).filterMap (pieceOf (framePixels h w)) := by
  have pixels : framePixels h w = (positionedPixels h w 0 w.taken).filter fun x =>
      decide (x.1 < h.height) && decide (x.2.column < h.width) := by
    rw [positionedPixels_eq hb hp ha]
    exact List.filter_congr fun x _ => Bool.decide_and _ _
  refine ⟨by rw [pixels]; rfl, rowPieces_eq ?_ ?_⟩
  · rw [pixels]
    exact (positionedPixels_sorted h w w.taken 0).1.filter _
  · intro x hx
    have := (List.mem_filter.1 hx).2
    simp only [decide_eq_true_eq] at this
    exact this.1

/-- The burst in progress that an inspectable write becomes (R23, R26 to R28, R34). -/
theorem makeBurst_eq {h : Header} {w : BufferedWrite} {k : Nat} {lane : Lane} (hl : h.lanes[k]? = some lane)
    (hb : h.base.toNat % 16 = 0) (hp : h.pitch % 16 = 0) (ha : h.base.toNat ≤ w.addr.toNat) : makeBurst h k w =
      { master := w.master
        addr := w.addr
        lane := k
        damaged := w.taken.any (·.bad)
        outOfLane := (framePixels h w).any fun x =>
          !decide (lane.first ≤ x.2.column ∧ x.2.column ≤ lane.last) && decide (x.2.strobes ≠ 0)
        segments := (List.range h.height).filterMap (segmentOf lane (framePixels h w)) } := by
  have own : h.lane k = lane := by simp [Header.lane, List.getD, hl]
  obtain ⟨pieces, rows⟩ := burstPieces_eq hb hp ha
  have out : hasOutOfLane lane (rowPieces (framePixels h w)) = (framePixels h w).any fun x =>
      !decide (lane.first ≤ x.2.column ∧ x.2.column ≤ lane.last) && decide (x.2.strobes ≠ 0) := by
    unfold hasOutOfLane
    rw [rowPieces_any]
    simp only [Lane.holds, Bool.decide_and, bne, Bool.beq_eq_decide_eq, ne_eq, decide_not]
  simp only [makeBurst, own, pieces, out]
  rw [rows, List.filterMap_filterMap]
  simp only [clipPiece_pieceOf]

end Sys2Proof.Machine
end

section
/-! SUPPORT. The answer to an offered write, and the opening of a frame (O10). -/

namespace Sys2Proof.Machine

/-! ### Inspectable writes (R24) -/

theorem Header.inspectable_outside {h : Header} {w : BufferedWrite}
    (hw : ¬ (h.window.lo ≤ w.addr.toNat ∧ w.addr.toNat ≤ h.window.hi)) : h.inspectable w = none := if_neg hw

/-- A master ID that is no lane's makes no write inspectable (R24). -/
theorem Header.inspectable_stranger {h : Header} {w : BufferedWrite} (hl : ∀ l ∈ h.lanes, l.master ≠ w.master) :
    h.inspectable w = none := by
  have : h.laneOf w.master = none := List.findIdx?_eq_none_iff.2 fun l hm => by simpa using hl l hm
  simp [Header.inspectable, this]

/-- The lane of a write is the first one with its master ID (R24). -/
theorem Header.inspectable_lane {h : Header} {w : BufferedWrite} {before after : List Lane} {lane : Lane}
    (hw : h.window.lo ≤ w.addr.toNat ∧ w.addr.toNat ≤ h.window.hi) (hl : h.lanes = before ++ lane :: after)
    (hb : ∀ l ∈ before, l.master ≠ w.master) (hm : lane.master = w.master) : h.inspectable w = some before.length := by
  have skip : before.findIdx? (·.master == w.master) = none :=
    List.findIdx?_eq_none_iff.2 fun l hx => by simpa using hb l hx
  rw [Header.inspectable, if_pos hw, Header.laneOf, hl, List.findIdx?_append, skip]
  simp [List.findIdx?_cons, hm]

/-- Against no program, or one that it is not inspectable against, a write is not inspectable (R24). -/
theorem inspectableBy_eq_none {o : Option Program} {w : BufferedWrite}
    (h : ∀ q, o = some q → q.header.inspectable w = none) : inspectableBy o w = none := by
  rcases o with _ | q
  · rfl
  · simp [inspectableBy, h q rfl]

theorem inspectableBy_some {w : BufferedWrite} {p : Program} {lane : Nat} (h : p.header.inspectable w = some lane) :
    inspectableBy (some p) w = some (p, lane) := by
  simp [inspectableBy, h]

/-! ### The program that a frame state looks to (R24) -/

theorem ProgramStore.activeProgram_eq_none {s : ProgramStore} (h : ∀ i, (s.bank i).active? = none) :
    s.activeProgram = none := by
  have h0 : s.bank0.active? = none := h .bank0
  have h1 : s.bank1.active? = none := h .bank1
  rw [ProgramStore.activeProgram_eq, h0, h1]
  rfl

theorem ProgramStore.readyBank_none {s : ProgramStore} (h : ∀ i, (s.bank i).ready? = none) : s.readyBank = none :=
  ProgramStore.readyBank_eq_none.2 fun i p hp => by simpa [hp, Bank.ready?] using h i

/-- Without a READY bank the candidate is the ACTIVE program (R24). -/
theorem ProgramStore.candidate_of_active {s : ProgramStore} (h : ∀ i, (s.bank i).ready? = none) :
    s.candidate = s.activeProgram := by
  simp [ProgramStore.candidate, ProgramStore.readyProgram, ProgramStore.readyBank_none h]

/-- The program of the READY bank is the candidate (R24). -/
theorem ProgramStore.candidate_of_ready {s : ProgramStore} {i : BankId} {p : Program} (h : s.bank i = .ready p)
    (ho : (s.bank i.other).ready? = none) : s.candidate = some p := by
  have : s.readyProgram = some p :=
    ProgramStore.readyProgram_of_bank h fun q hq => by simp [hq, Bank.ready?] at ho
  simp [ProgramStore.candidate, this]

theorem ProgramStore.activeProgram_of_other {s : ProgramStore} {i : BankId} {p : Program} (h : s.bank i = .active p)
    (ho : (s.bank i.other).active? = none) : s.activeProgram = some p :=
  ProgramStore.activeProgram_of_bank h fun q hq => by simp [hq, Bank.active?] at ho

/-- The exchange at frame open, with a READY bank and no load in progress (R18). -/
theorem ProgramStore.exchange_ready {s : ProgramStore} {i : BankId} {p : Program} (h : s.bank i = .ready p)
    (hl : (s.bank i.other).load? = none) (hr : (s.bank i.other).ready? = none) :
    s.exchange = (s.setBank i.other .empty).setBank i (.active p) := by
  refine ProgramStore.exchange_eq (.of_bank i (fun l h' => ?_) (fun l h' => ?_) (fun q _ q' h' => ?_) fun q h' => ?_) h
  · simp [h] at h'
  · simp [h', Bank.load?] at hl
  · simp [h', Bank.ready?] at hr
  · simp [h] at h'

/-! ### The board of a frame (R36) -/

/-- The oldest AWAITING_IMAGE board is bound (R36). -/
theorem bindBoard_append (frame : FrameNumber) {before after : List Board} {board : Board}
    (hb : ∀ x ∈ before, x.state ≠ .awaitingImage) (h : board.state = .awaitingImage) :
    bindBoard frame (before ++ board :: after) =
      (before ++ { board with state := .imaging frame } :: after, some board.serial) := by
  induction before with
  | nil => simp [bindBoard, h]
  | cons x before ih =>
    rw [List.cons_append, bindBoard, if_neg (hb x List.mem_cons_self), ih fun y hy => hb y (List.mem_cons_of_mem _ hy)]
    rfl

theorem bindBoard_none (frame : FrameNumber) {queue : List Board} (h : ∀ x ∈ queue, x.state ≠ .awaitingImage) :
    bindBoard frame queue = (queue, none) := by
  induction queue with
  | nil => rfl
  | cons x queue ih =>
    rw [bindBoard, if_neg (h x List.mem_cons_self), ih fun y hy => h y (List.mem_cons_of_mem _ hy)]

/-! ### The opening of a frame (R18, R35) -/

/-- The exchange of banks asks for no more than a rewrite (R5, R18). -/
theorem Block.exchangeBanks_asked (b : Block) : b.exchangeBanks.askRewrite.master = b.askRewrite.master
    ∧ b.exchangeBanks.askRewrite.stamp = b.askRewrite.stamp := by
  unfold Block.exchangeBanks
  split
  · rw [Block.askRewrite_askRewrite]
    exact Block.askRewrite_congr rfl rfl
  · exact ⟨rfl, rfl⟩

/-- The opening of a frame, all in all (R18, R35, R36, R92). -/
theorem Block.openFrame_eq (b : Block) (p : Program) : b.openFrame p = { b.askRewrite with
    store := b.store.exchange
    tracker := { b.tracker with
      state := .opened
      number := b.tracker.number + 1
      closeKind := none
      opening := b.line.position
      binding := (bindBoard (b.tracker.number + 1) b.line.queue).2
      progress := p.header.lanes.map Lane.freshProgress }
    joints := { b.joints with pointer := 0 }
    tally := .fresh
    line := { b.line with queue := (bindBoard (b.tracker.number + 1) b.line.queue).1 } } := by
  have asked := b.exchangeBanks_asked
  simp only [Block.openFrame]
  apply Block.eq_of_parts
  case h4 => refine (Block.askRewrite_congr (c := b.exchangeBanks) ?_ ?_).1.trans asked.1 <;> rfl
  case h14 => refine (Block.askRewrite_congr (c := b.exchangeBanks) ?_ ?_).2.trans asked.2 <;> rfl
  all_goals simp [Block.exchangeBanks_store]

/-! ### BURST_OFFER (R23, R25) -/

/-- Nothing is offered with a burst in progress, or without a head write that can be offered (R23). -/
theorem Block.burstOffer_nothing {b : Block} {w : BufferedWrite} {rest : List BufferedWrite}
    (hq : b.capture.buffer = w :: rest) (h : b.tracker.burst ≠ none ∨ b.canOffer w = false) : b.burstOffer = b := by
  unfold Block.burstOffer
  split
  · next w' rest' hb hq' =>
    obtain ⟨rfl, rfl⟩ := List.cons.inj (hq.symm.trans hq')
    rw [if_neg (by simpa using h.resolve_left fun hn => hn hb)]
  · rfl

/-- The head write is offered, and answered by the frame state (R23, R25). -/
theorem Block.burstOffer_offered {b : Block} {w : BufferedWrite} {rest : List BufferedWrite}
    (hq : b.capture.buffer = w :: rest) (hb : b.tracker.burst = none) (ho : b.canOffer w = true) : b.burstOffer =
    match b.offerAnswer w with
    | .pass => b.setCaptureHead w rest .ready false
    | .hold => b.setCaptureHead w rest .held false
    | .inspect p lane => (b.setCaptureHead w rest .ready true).takeBurst p lane w
    | .openFrame p lane => ((b.setCaptureHead w rest .ready true).openFrame p).takeBurst p lane w := by
  simp only [Block.burstOffer, hb, hq]
  exact if_pos ho

/-- A write not inspectable against the program that the frame state looks to passes (R25). -/
theorem Block.offerAnswer_pass {b : Block} {w : BufferedWrite}
    (h : (b.tracker.state = .opened ∧ inspectableBy b.store.activeProgram w = none)
      ∨ (b.tracker.state = .idle ∧ inspectableBy b.store.candidate w = none)
      ∨ (b.tracker.state = .closing ∧ inspectableBy b.store.activeProgram w = none
        ∧ inspectableBy b.store.candidate w = none)) : b.offerAnswer w = .pass := by
  rcases h with ⟨hs, h⟩ | ⟨hs, h⟩ | ⟨hs, ha, hc⟩
  · simp only [Block.offerAnswer, hs, h]
  · simp only [Block.offerAnswer, hs, h]
  · simp [Block.offerAnswer, hs, ha, hc]

/-- A write inspectable against either program is held in CLOSING (R25). -/
theorem Block.offerAnswer_hold {b : Block} {w : BufferedWrite} {p : Program} {lane : Nat}
    (hs : b.tracker.state = .closing) (h : b.store.activeProgram = some p ∨ b.store.candidate = some p)
    (hl : p.header.inspectable w = some lane) : b.offerAnswer w = .hold := by
  rcases h with h | h <;> simp [Block.offerAnswer, hs, h, inspectableBy_some hl]

/-- The bank that a frame opens on, and the banks once it has opened (R18, R24). -/
theorem ProgramStore.opens {s store : ProgramStore} {i : BankId} {p : Program}
    (h : (s.bank i = .ready p ∧ (s.bank i.other).load? = none ∧ (s.bank i.other).ready? = none
        ∧ store = (s.setBank i.other .empty).setBank i (.active p))
      ∨ (s.bank i = .active p ∧ (s.bank i.other).ready? = none ∧ (s.bank i.other).active? = none ∧ store = s)) :
    s.candidate = some p ∧ s.exchange = store := by
  rcases h with ⟨hp, hl, hr, rfl⟩ | ⟨hp, hr, ha, rfl⟩
  · exact ⟨ProgramStore.candidate_of_ready hp hr, ProgramStore.exchange_ready hp hl hr⟩
  · have none : ∀ j, (store.bank j).ready? = none := by
      intro j
      rcases i.eq_or_other j with rfl | rfl
      · simp [hp, Bank.ready?]
      · exact hr
    exact ⟨(ProgramStore.candidate_of_active none).trans (ProgramStore.activeProgram_of_other hp ha),
      ProgramStore.exchange_none (ProgramStore.readyBank_none none)⟩

/-- The board of a frame that opens, and the queue once it is bound (R36). -/
theorem bindBoard_eq {frame : FrameNumber} {line queue : List Board} {binding : Option Serial}
    (h : (∃ before board after, line = before ++ board :: after ∧ (∀ x ∈ before, x.state ≠ .awaitingImage)
        ∧ board.state = .awaitingImage ∧ queue = before ++ { board with state := .imaging frame } :: after
        ∧ binding = some board.serial)
      ∨ ((∀ x ∈ line, x.state ≠ .awaitingImage) ∧ queue = line ∧ binding = none)) :
    bindBoard frame line = (queue, binding) := by
  rcases h with ⟨before, board, after, rfl, hb, ha, rfl, rfl⟩ | ⟨hn, rfl, rfl⟩
  · exact bindBoard_append frame hb ha
  · exact bindBoard_none frame hn

/-- Settles O10. -/
theorem offeredWriteIsAnsweredByFrameState : Obligations.OfferedWriteIsAnsweredByFrameState := by
  unfold Obligations.OfferedWriteIsAnsweredByFrameState
  refine ⟨fun s w rest hq => ⟨fun h => ?_, fun hb hc hw => ?_⟩,
    fun s w rest p lane i store queue binding hb hq hc hw hs hi hstore hboard => ?_,
    fun store => ⟨ProgramStore.activeProgram_eq_none, fun i p => ProgramStore.activeProgram_of_other,
      ProgramStore.candidate_of_active, fun i p => ProgramStore.candidate_of_ready⟩,
    fun h w => ⟨fun ho => ?_, fun before l after hin hl => Header.inspectable_lane hin hl⟩,
    fun h w k lane hl hb hp ha => makeBurst_eq hl hb hp ha⟩
  · refine congrArg (fun b => Host.Outcome.next (s.withBlock b)) (Block.burstOffer_nothing hq ?_)
    rw [← Bool.not_eq_true, Block.canOffer_iff]
    rcases h with h | h | ⟨h, h'⟩ | h | h
    · exact .inl h
    · exact .inr (by simp [h])
    · exact .inr (by simp [h, h'])
    · exact .inr (by simp [h])
    · exact .inr (by simp [h])
  · have offered := Block.burstOffer_offered hq hb ((s.block.canOffer_iff w).2 ⟨hc, hw⟩)
    have takes : ∀ {t}, s.block.burstOffer = t → exec .burstOffer s = .next (s.withBlock t) :=
      fun h => congrArg (fun b => Host.Outcome.next (s.withBlock b)) h
    intro answered free passes
    have pass : s.block.offerAnswer w = .pass → passes := fun h => takes (by rw [offered, h]; rfl)
    refine ⟨fun hs hf => pass (Block.offerAnswer_pass (.inl ⟨hs, inspectableBy_eq_none hf⟩)),
      fun hs hf => pass (Block.offerAnswer_pass (.inr (.inl ⟨hs, inspectableBy_eq_none hf⟩))),
      fun hs hf hf' => pass (Block.offerAnswer_pass
        (.inr (.inr ⟨hs, inspectableBy_eq_none hf, inspectableBy_eq_none hf'⟩))),
      fun p lane hl => ⟨fun hs hp => takes ?_, fun hs hp => takes ?_⟩⟩
    · have inspect : s.block.offerAnswer w = .inspect p lane := by
        simp only [Block.offerAnswer, hs, hp, inspectableBy_some hl]
      rw [offered, inspect]
      rfl
    · rw [offered, Block.offerAnswer_hold hs hp hl]
      rfl
  · have offered := Block.burstOffer_offered hq hb
      ((s.block.canOffer_iff w).2 ⟨hc, hw.imp_right fun h => ⟨h, hs⟩⟩)
    obtain ⟨candidate, exchanged⟩ := ProgramStore.opens hstore
    have opens : s.block.offerAnswer w = .openFrame p lane := by
      simp only [Block.offerAnswer, hs, candidate, inspectableBy_some hi]
    have bound := bindBoard_eq hboard
    refine congrArg (fun b => Host.Outcome.next (s.withBlock b)) ?_
    rw [offered, opens]
    show ((s.block.setCaptureHead w rest .ready true).openFrame p).takeBurst p lane w = _
    have asked := Block.askRewrite_congr (b := s.block.setCaptureHead w rest .ready true) (c := s.block) rfl rfl
    have queue_eq : bindBoard ((s.block.setCaptureHead w rest .ready true).tracker.number + 1)
        (s.block.setCaptureHead w rest .ready true).line.queue = (queue, binding) := bound
    rw [Block.openFrame_eq, queue_eq]
    apply Block.eq_of_parts
    case h4 => exact asked.1
    case h14 => exact asked.2
    case h6 => exact exchanged
    case h7 => rfl
    case h9 => rfl
    all_goals simp [Block.takeBurst, Block.setCaptureHead]
  · exact ho.elim Header.inspectable_outside Header.inspectable_stranger

end Sys2Proof.Machine
end

section
/-! SUPPORT. What a sound board queue rests on, the changes that keep it as it is, and the entry and the leaving of
boards (R102, R109; O56). -/

namespace Sys2Proof.Machine

/-! ### What a sound queue rests on -/

/-- The serial and the positions of an entry, which it keeps as long as it is in the queue (R102). -/
def Board.marks (x : Board) : Serial × Position × Position := (x.serial, x.entry, x.due)

/-- An IMAGING entry is the board bound to the frame that is not IDLE (R36). -/
def FrameTracker.Binds (k : FrameTracker) (x : Board) : Prop :=
  ∀ f, x.state = .imaging f → k.state ≠ .idle ∧ f = k.number ∧ k.binding = some x.serial

/-- The queue stays sound while its entries keep their serials and positions, and each IMAGING one stays bound. -/
theorem Block.QueueSound.of_marks {b t : Block} (h : b.QueueSound)
    (hq : t.line.queue.map Board.marks = b.line.queue.map Board.marks) (hs : t.line.serial = b.line.serial)
    (hc : t.line.config = b.line.config) (bound : ∀ x ∈ t.line.queue, t.tracker.Binds x) : t.QueueSound := by
  have len : t.line.queue.length = b.line.queue.length := by simpa using congrArg List.length hq
  refine ⟨fun k hk => ?_, fun x hx => ?_, bound⟩
  · have same : (t.line.queue[k]).marks = (b.line.queue[k]).marks := by
      simpa [hk, len ▸ hk] using congrArg (·[k]?) hq
    rw [hs, len, ← h.serials k (len ▸ hk)]
    exact congrArg Prod.fst same
  · obtain ⟨y, hy, same⟩ : ∃ y ∈ b.line.queue, y.marks = x.marks :=
      List.mem_map.1 (hq ▸ List.mem_map_of_mem hx)
    obtain ⟨-, entry, due⟩ : y.serial = x.serial ∧ y.entry = x.entry ∧ y.due = x.due := by
      simpa [Board.marks] using same
    rw [hc, ← due, ← entry]
    exact h.due y hy

/-- An empty queue is sound. -/
theorem Block.QueueSound.of_empty {b : Block} (h : b.line.queue = []) : b.QueueSound := by
  refine ⟨fun k hk => ?_, ?_, ?_⟩
  · simp [h] at hk
  all_goals simp [h]

/-- Once no board is IMAGING the frame is free to move. -/
theorem Block.QueueSound.of_none_imaging {b t : Block} (h : b.QueueSound) (hl : t.line = b.line)
    (free : ∀ x ∈ b.line.queue, ∀ f, x.state ≠ .imaging f) : t.QueueSound :=
  h.of_marks (by rw [hl]) (by rw [hl]) (by rw [hl]) fun x hx f hf => absurd hf (free x (hl ▸ hx) f)

/-- In IDLE no board is IMAGING (R36). -/
theorem Block.QueueSound.none_imaging {b : Block} (h : b.QueueSound) (hi : b.tracker.state = .idle) :
    ∀ x ∈ b.line.queue, ∀ f, x.state ≠ .imaging f := fun x hx f hf => (h.imaging x hx f hf).1 hi

/-! ### Changes that keep the queue as it is -/

/-- Queue, serial counter and configuration of the line are as they were. -/
def Line.SameBoards (l m : Line) : Prop := m.queue = l.queue ∧ m.serial = l.serial ∧ m.config = l.config

/-- The boards are as they were, and so is the frame as far as they are bound to it. -/
structure Block.KeepsBoards (b t : Block) : Prop where
  line : b.line.SameBoards t.line
  idle : t.tracker.state = .idle → b.tracker.state = .idle
  number : t.tracker.number = b.tracker.number
  binding : t.tracker.binding = b.tracker.binding

theorem Block.QueueSound.of_keeps {b t : Block} (h : b.QueueSound) (hk : b.KeepsBoards t) : t.QueueSound := by
  obtain ⟨hq, hs, hc⟩ := hk.line
  refine h.of_marks (by rw [hq]) hs hc fun x hx f hf => ?_
  obtain ⟨state, number, binding⟩ := h.imaging x (hq ▸ hx) f hf
  exact ⟨mt hk.idle state, number.trans hk.number.symm, hk.binding.trans binding⟩

theorem Block.KeepsBoards.refl (b : Block) : b.KeepsBoards b := ⟨⟨rfl, rfl, rfl⟩, id, rfl, rfl⟩

theorem Block.KeepsBoards.trans {b c t : Block} (h : b.KeepsBoards c) (h' : c.KeepsBoards t) : b.KeepsBoards t := by
  obtain ⟨hq, hs, hc⟩ := h.line
  obtain ⟨hq', hs', hc'⟩ := h'.line
  exact ⟨⟨hq'.trans hq, hs'.trans hs, hc'.trans hc⟩, h.idle ∘ h'.idle, h'.number.trans h.number,
    h'.binding.trans h.binding⟩

theorem Block.KeepsBoards.after {b c t : Block} (h' : c.KeepsBoards t) (h : b.KeepsBoards c) : b.KeepsBoards t :=
  h.trans h'

/-- A change of other parts than the line and the frame. -/
theorem Block.KeepsBoards.of_eq {b t : Block} (hl : t.line = b.line) (ht : t.tracker = b.tracker) :
    b.KeepsBoards t := by
  refine ⟨⟨?_, ?_, ?_⟩, ?_, ?_, ?_⟩ <;> simp [hl, ht]

/-- A close binds no other board. -/
theorem FrameTracker.ClosesTo.keepsBoards {k : FrameTracker} {b t : Block} (h : k.ClosesTo t.tracker)
    (hk : k.state = b.tracker.state ∧ k.number = b.tracker.number ∧ k.binding = b.tracker.binding)
    (hl : b.line.SameBoards t.line) : b.KeepsBoards t := by
  obtain ⟨state, number, binding⟩ := hk
  rcases h with ht | ⟨-, kind, ht⟩
  · exact ⟨hl, by simp [ht, state], by simp [ht, number], by simp [ht, binding]⟩
  · exact ⟨hl, by simp [ht], by simp [ht, number], by simp [ht, binding]⟩

theorem Block.Quiet.keepsBoards {b t : Block} (h : b.Quiet t) (hl : b.line.SameBoards t.line) : b.KeepsBoards t :=
  h.tracker.keepsBoards ⟨rfl, rfl, rfl⟩ hl

/-! ### The shared operations -/

variable (b : Block)

theorem Block.keepsBoards_askRewrite : b.KeepsBoards b.askRewrite := .of_eq (by simp) (by simp)

@[simp] theorem Block.triggerHold_boards : (b.triggerHold).line.queue = b.line.queue
    ∧ (b.triggerHold).line.serial = b.line.serial ∧ (b.triggerHold).line.config = b.line.config := by
  rw [Block.triggerHold_line]
  split_ifs <;> simp

@[simp] theorem Block.containPort_boards (i : PortId) : (b.containPort i).line.queue = b.line.queue
    ∧ (b.containPort i).line.serial = b.line.serial ∧ (b.containPort i).line.config = b.line.config := by
  unfold Block.containPort
  split
  · simp
  · cases i
    · simp only
      split <;> simp
    · simp

/-- A report changes the gate driver at most (R127). -/
@[simp] theorem Block.report_boards (e : LoggedError) : (b.report e).line.queue = b.line.queue
    ∧ (b.report e).line.serial = b.line.serial ∧ (b.report e).line.config = b.line.config := by
  unfold Block.report Block.followReport
  split
  case' h_3 | h_4 | h_6 | h_7 => split
  all_goals simp

theorem Block.keepsBoards_report (e : LoggedError) : b.KeepsBoards (b.report e) :=
  (b.quiet_report e).keepsBoards (b.report_boards e)

/-! ### Ports -/

theorem Block.keepsBoards_setPort (i : PortId) (p : Port) : b.KeepsBoards (b.setPort i p) :=
  .of_eq (by simp) (by simp)

theorem Block.keepsBoards_writeRequest (i : PortId) (r : Request) : b.KeepsBoards (b.writeRequest i r) := by
  have take : ∀ p, b.KeepsBoards (b.setPort i p).nextStamp := fun p => .of_eq (by simp) (by simp)
  unfold Block.writeRequest
  split_ifs
  · exact take _
  · exact (take _).trans (Block.keepsBoards_report _ _)
  · exact .refl b

theorem Block.keepsBoards_readRequest (i : PortId) (r : Request) : b.KeepsBoards (b.readRequest i r) := by
  have take : ∀ p, b.KeepsBoards (b.setPort i p).nextStamp := fun p => .of_eq (by simp) (by simp)
  unfold Block.readRequest
  split_ifs
  · simp only [Block.takeRead]
    split <;> exact take _
  · exact (take _).trans (Block.keepsBoards_report _ _)
  · exact .refl b

theorem Block.keepsBoards_writeBeat (i : PortId) (x : WriteBeat) : b.KeepsBoards (b.writeBeat i x) := by
  have put := b.keepsBoards_setPort i
  unfold Block.writeBeat
  split
  · exact .refl b
  · split
    · exact .refl b
    · exact put _
    · simp only [Block.bufferedBeat, Block.lastBeat]
      split
      · exact put _
      · split
        · exact (put _).trans (Block.keepsBoards_report _ _)
        · exact put _

/-! ### The record writer -/

theorem Block.keepsBoards_applyConsumer (u : ConsumerUpdate) : b.KeepsBoards (b.applyConsumer u) := by
  unfold Block.applyConsumer
  split
  · exact .refl b
  · split
    · exact .of_eq rfl rfl
    · simp only
      exact (Block.keepsBoards_report _ _).after (.of_eq rfl rfl)

theorem Block.keepsBoards_takeConsumer (u : ConsumerUpdate) : b.KeepsBoards (b.takeConsumer u) := by
  unfold Block.takeConsumer
  split
  · exact .refl b
  · exact .of_eq rfl rfl
  · exact b.keepsBoards_applyConsumer u

theorem Block.keepsBoards_applyHeld : b.KeepsBoards b.applyHeld := by
  unfold Block.applyHeld
  split
  · exact (Block.keepsBoards_applyConsumer _ _).after (.of_eq rfl rfl)
  · exact .refl b

theorem Block.keepsBoards_endSlotWrite : b.KeepsBoards b.endSlotWrite := by
  have ended : b.KeepsBoards { b with writer := { b.writer with slotWrite := none } } := .of_eq rfl rfl
  exact (ended.trans (Block.keepsBoards_applyHeld _)).trans (.of_eq rfl rfl)

theorem Block.keepsBoards_slotDone (n : Nat) : b.KeepsBoards (b.slotDone n) := by
  unfold Block.slotDone
  split
  · exact (Block.keepsBoards_endSlotWrite _).after (.of_eq (by simp) (by simp))
  · exact .refl b

theorem Block.keepsBoards_slotFailed (n : Nat) : b.KeepsBoards (b.slotFailed n) := by
  unfold Block.slotFailed
  split
  · exact (Block.keepsBoards_endSlotWrite _).after (.of_eq rfl rfl)
  · exact .refl b

theorem Block.keepsBoards_ringSlotWrite : b.KeepsBoards b.ringSlotWrite := by
  unfold Block.ringSlotWrite
  split
  · exact .refl b
  · split_ifs
    · exact .refl b
    · exact .of_eq rfl rfl
    · exact .of_eq rfl rfl

/-! ### Loads and waiting owners -/

theorem Block.keepsBoards_fetchReadIssue : b.KeepsBoards b.fetchReadIssue := by
  unfold Block.fetchReadIssue
  split
  · exact .refl b
  · split_ifs
    · exact .refl b
    · exact .of_eq rfl rfl
    · exact .of_eq rfl rfl

theorem Block.keepsBoards_handWaiter (w : Waiter) : b.KeepsBoards (b.handWaiter w) := by
  unfold Block.handWaiter
  split
  · split
    · exact .of_eq rfl rfl
    · exact .refl b
  · split
    · exact .of_eq rfl rfl
    · exact .refl b
  · exact .of_eq rfl rfl
  · exact .of_eq rfl rfl

theorem Block.keepsBoards_internalHandover : b.KeepsBoards b.internalHandover := by
  unfold Block.internalHandover
  induction b.master.waiters generalizing b with
  | nil => exact .of_eq rfl rfl
  | cons w rest ih =>
    unfold Block.drainWaiters
    simp only
    split
    · exact (ih _).after ((Block.keepsBoards_handWaiter _ w).after (.of_eq rfl rfl))
    · exact .of_eq rfl rfl

/-! ### Requests at memory -/

theorem Block.keepsBoards_ownerDone (o : EntryOwner) (data : List Beat) : b.KeepsBoards (b.ownerDone o data) := by
  unfold Block.ownerDone
  split
  · exact .of_eq (by simp) (by simp)
  · exact b.keepsBoards_slotDone _
  · exact .refl b

theorem Block.keepsBoards_ownerFails (o : EntryOwner) : b.KeepsBoards (b.ownerFails o) := by
  unfold Block.ownerFails
  split
  · exact .of_eq (by simp) (by simp)
  · exact b.keepsBoards_slotFailed _
  · exact .refl b

theorem Block.keepsBoards_answerPort (i : PortId) (n : Nat) (r : Response) (d : List Beat) :
    b.KeepsBoards (b.answerPort i n r d) := b.keepsBoards_setPort i _

theorem Block.keepsBoards_memoryResponse (tag : Nat) (r : Response) (data : List Beat) :
    b.KeepsBoards (b.memoryResponse tag r data) := by
  unfold Block.memoryResponse
  split
  · exact .refl b
  · refine .after ?_ (.of_eq rfl rfl : b.KeepsBoards (b.retire tag))
    unfold Block.route
    split
    · exact Block.keepsBoards_answerPort _ _ _ _ _
    · exact (Block.keepsBoards_report _ _).after (Block.keepsBoards_answerPort _ _ _ _ _)
    · exact Block.keepsBoards_ownerDone _ _ _
    · exact (Block.keepsBoards_ownerFails _ _).after (Block.keepsBoards_report _ _)

theorem Block.keepsBoards_elapse (n : Nat) : b.KeepsBoards (b.elapse n) := by
  refine Block.Quiet.keepsBoards (b.quiet_elapse n) ?_
  unfold Line.SameBoards Block.elapse
  simp only
  split <;> simp

theorem Block.keepsBoards_responseTimerExpiry (tag : Nat) : b.KeepsBoards (b.responseTimerExpiry tag) := by
  unfold Block.responseTimerExpiry
  split
  · exact .refl b
  · next e _ =>
    have retired : (b.elapse e.timer).KeepsBoards ((b.elapse e.timer).retire tag) := .of_eq rfl rfl
    refine .after ?_ ((b.keepsBoards_elapse e.timer).trans retired)
    unfold Block.timeOut
    simp only
    split
    · exact (Block.keepsBoards_answerPort _ _ _ _ _).after (Block.keepsBoards_report _ _)
    · exact (Block.keepsBoards_ownerFails _ _).after (Block.keepsBoards_report _ _)

/-! ### The line -/

theorem Block.keepsBoards_illegalSample (x : Bool × Bool) : b.KeepsBoards (b.illegalSample x) :=
  (b.quiet_illegalSample x).keepsBoards (Block.report_boards _ _)

theorem Block.keepsBoards_illegalStep : b.KeepsBoards b.illegalStep := by
  unfold Block.illegalStep
  split
  · exact b.keepsBoards_illegalSample _
  · exact .refl b

theorem Block.keepsBoards_deadTimeEnd : b.KeepsBoards b.deadTimeEnd := by
  unfold Block.deadTimeEnd
  split
  · next left _ _ =>
    obtain ⟨hq, hs, hc⟩ := (b.keepsBoards_elapse left).line
    refine ⟨⟨?_, ?_, ?_⟩, id, rfl, rfl⟩ <;> simp [hq, hs, hc]
  · exact .refl b

/-- The action of a due board leaves the queue to the test that took it (R109, R110). -/
theorem Block.keepsBoards_dueAction (x : Board) : b.KeepsBoards (b.dueAction x) := by
  refine (b.quiet_dueAction x).keepsBoards ?_
  unfold Line.SameBoards Block.dueAction
  split <;> simp

theorem Block.keepsBoards_timeoutTest : b.KeepsBoards b.timeoutTest := by
  refine b.quiet_timeoutTest.keepsBoards ?_
  simp only [Line.SameBoards, Block.timeoutTest]
  split <;> simp

variable {b}

/-- The head leaves the queue (R109). -/
theorem Block.QueueSound.tail (h : b.QueueSound) {x : Board} {rest : List Board} (hq : b.line.queue = x :: rest) :
    ({ b with line := { b.line with queue := rest } } : Block).QueueSound := by
  have inside : ∀ y ∈ rest, y ∈ b.line.queue := fun y hy => hq ▸ List.mem_cons_of_mem x hy
  refine ⟨fun k (hk : k < rest.length) => ?_, fun y hy => h.due y (inside y hy), fun y hy => h.imaging y (inside y hy)⟩
  have next := h.serials (k + 1) (by simp [hq, hk])
  simpa [hq] using next

theorem Block.QueueSound.dueBoards (n : Nat) (h : b.QueueSound) : (Block.dueBoards n b).QueueSound := by
  induction n generalizing b with
  | zero => exact h
  | succ n ih =>
    unfold Block.dueBoards
    split
    · exact h
    · next x rest hq =>
      split
      · have acted := b.keepsBoards_dueAction x
        have left := (h.of_keeps acted).tail (acted.line.1.trans hq)
        exact ih (left.of_keeps (Block.keepsBoards_askRewrite _))
      · exact h

theorem Block.QueueSound.positionChanged (h : b.QueueSound) : b.positionChanged.QueueSound := by
  have ended : b.KeepsBoards { b with line := b.line.windowEnd } :=
    ⟨by simp [Line.SameBoards], id, rfl, rfl⟩
  exact ((h.of_keeps ended).dueBoards _).of_keeps (Block.keepsBoards_timeoutTest _)

/-- A sample of the encoder takes due boards at most (R99). -/
theorem Block.QueueSound.encoderSample (h : b.QueueSound) (x : Bool × Bool) : (b.encoderSample x).QueueSound := by
  unfold Block.encoderSample
  split
  · exact h.of_keeps ⟨⟨rfl, rfl, rfl⟩, id, rfl, rfl⟩
  · split
    · exact h
    · split
      · exact Block.QueueSound.positionChanged (h.of_keeps ⟨⟨rfl, rfl, rfl⟩, id, rfl, rfl⟩)
      · exact h.of_keeps (b.keepsBoards_illegalSample x)

/-- A board enters at the tail with the next serial and its due position (R102). -/
theorem Block.QueueSound.enters (h : b.QueueSound) (p : Position) :
    ({ b with line := { b.line with
      queue := b.line.queue ++ [⟨b.line.serial, p, p + BitVec.ofNat 32 b.line.config.diverter, .awaitingImage⟩]
      serial := b.line.serial + 1 } } : Block).QueueSound := by
  refine ⟨fun k hk => ?_, fun x hx => ?_, fun x hx f hf => ?_⟩
  · simp only [List.length_append, List.length_singleton] at hk ⊢
    rcases Nat.lt_succ_iff_lt_or_eq.1 hk with hk | rfl
    · rw [List.getElem_append_left hk, h.serials k hk]
      bv_omega
    · simp
  · rcases List.mem_append.1 hx with hx | hx
    · exact h.due x hx
    · rw [List.mem_singleton.1 hx]
  · rcases List.mem_append.1 hx with hx | hx
    · exact h.imaging x hx f hf
    · rw [List.mem_singleton.1 hx] at hf
      cases hf

theorem Block.QueueSound.leadingEdge (h : b.QueueSound) : b.leadingEdge.QueueSound := by
  simp only [Block.leadingEdge]
  split_ifs
  · exact h
  · exact (h.enters b.line.position).of_keeps (Block.keepsBoards_askRewrite _)
  · exact h.of_keeps ((Block.keepsBoards_askRewrite _).after ((Block.keepsBoards_report _ _).after
      ⟨⟨rfl, rfl, rfl⟩, id, rfl, rfl⟩))

theorem Block.QueueSound.edgeTo (h : b.QueueSound) (high : Bool) : (b.edgeTo high).QueueSound := by
  have settled : (b.settleEdge high).QueueSound := h.of_keeps ⟨⟨rfl, rfl, rfl⟩, id, rfl, rfl⟩
  unfold Block.edgeTo
  split
  · exact settled.leadingEdge
  · exact settled

theorem Block.QueueSound.edgeSample (h : b.QueueSound) (high : Bool) : (b.edgeSample high).QueueSound := by
  unfold Block.edgeSample
  split_ifs
  · exact h.of_keeps ⟨⟨rfl, rfl, rfl⟩, id, rfl, rfl⟩
  · exact h.of_keeps ⟨⟨rfl, rfl, rfl⟩, id, rfl, rfl⟩
  · exact h.edgeTo high

theorem Block.QueueSound.boardEdgeTrailing (h : b.QueueSound) : b.boardEdgeTrailing.QueueSound := by
  unfold Block.boardEdgeTrailing
  split
  · exact h.edgeTo _
  · exact h

theorem Block.QueueSound.boardEdgeLeading (h : b.QueueSound) : b.boardEdgeLeading.QueueSound := by
  unfold Block.boardEdgeLeading
  split
  · exact h
  · exact h.edgeTo _

end Sys2Proof.Machine
end

section
/-! SUPPORT. The board queue over the commands of the frame and of the mailbox, and over every step (O56). -/

namespace Sys2Proof.Machine

variable {b : Block}

/-! ### The frame -/

/-- The board that a frame binds is IMAGING for it, and no other is (R36). -/
theorem bindBoard_binds (frame : FrameNumber) {queue : List Board} (h : ∀ x ∈ queue, ∀ f, x.state ≠ .imaging f) :
    ∀ x ∈ (bindBoard frame queue).1, ∀ f, x.state = .imaging f →
      f = frame ∧ (bindBoard frame queue).2 = some x.serial := by
  induction queue with
  | nil => simp [bindBoard]
  | cons y rest ih =>
    obtain ⟨hy, hrest⟩ := List.forall_mem_cons.1 h
    intro x hx f hf
    unfold bindBoard at hx ⊢
    split at hx
    · next awaits =>
      rcases List.mem_cons.1 hx with rfl | hx
      · cases hf
        simp [awaits]
      · exact absurd hf (hrest x hx f)
    · next other =>
      rcases List.mem_cons.1 hx with rfl | hx
      · exact absurd hf (hy f)
      · simpa [other] using ih hrest x hx f hf

theorem bindBoard_marks (frame : FrameNumber) (queue : List Board) :
    (bindBoard frame queue).1.map Board.marks = queue.map Board.marks := by
  induction queue with
  | nil => rfl
  | cons y rest ih =>
    unfold bindBoard
    split
    · rfl
    · simp [ih]

theorem Block.QueueSound.openFrame (h : b.QueueSound) (hi : b.tracker.state = .idle) (p : Program) :
    (b.openFrame p).QueueSound := by
  rw [Block.openFrame_eq]
  refine h.of_marks (bindBoard_marks _ _) rfl rfl fun x hx f hf => ?_
  obtain ⟨number, binding⟩ := bindBoard_binds _ (h.none_imaging hi) x hx f hf
  exact ⟨by simp, number, binding⟩

/-- BURST_OFFER binds a board when it opens a frame (R35, R36). -/
theorem Block.QueueSound.burstOffer (h : b.QueueSound) : b.burstOffer.QueueSound := by
  unfold Block.burstOffer
  split
  · split
    · split
      · exact h.of_keeps (.of_eq rfl rfl)
      · exact h.of_keeps (.of_eq rfl rfl)
      · exact h.of_keeps ⟨⟨rfl, rfl, rfl⟩, id, rfl, rfl⟩
      · next w rest _ _ _ _ p _ ha =>
        have idle := (Block.offerAnswer_openFrame ha).1
        have offered : (b.setCaptureHead w rest .ready true).QueueSound := h.of_keeps (.of_eq rfl rfl)
        exact (offered.openFrame idle p).of_keeps ⟨⟨rfl, rfl, rfl⟩, id, rfl, rfl⟩
    · exact h
  · exact h

theorem Block.keepsBoards_handleSegment (b : Block) (p : Program) (u : Burst) (g : Segment) :
    b.KeepsBoards (b.handleSegment p u g) := by
  obtain ⟨progress, closes⟩ := (b.handleSegment_handles p u g).tracker
  refine closes.keepsBoards ⟨rfl, rfl, rfl⟩ ?_
  unfold Line.SameBoards Block.handleSegment
  split
  · simp
  · split <;> simp [Block.orderBreak]

@[simp] theorem Block.takeInspectionReset_queue (b : Block) : b.takeInspectionReset.line.queue = [] := by
  simp only [Block.takeInspectionReset, Block.askRewrite_frame, Line.inspectionReset]
  split <;> simp

theorem Block.takeInspectionReset_queueSound (b : Block) : b.takeInspectionReset.QueueSound :=
  .of_empty b.takeInspectionReset_queue

theorem Block.QueueSound.segment (h : b.QueueSound) : b.segment.QueueSound := by
  have reset : ∀ c : Block, c.QueueSound → c.resetAfterSegment.QueueSound := by
    intro c hc
    unfold Block.resetAfterSegment
    split
    · exact c.takeInspectionReset_queueSound
    · exact hc
  unfold Block.segment
  split
  · next u p _ _ =>
    have report : b.KeepsBoards (b.reportLaneRange u) := by
      unfold Block.reportLaneRange
      split
      · exact b.keepsBoards_report _
      · exact .refl b
    have left : ∀ (c : Block) rest, c.KeepsBoards (c.setSegments u rest) :=
      fun c rest => ⟨⟨rfl, rfl, rfl⟩, id, rfl, rfl⟩
    simp only
    split
    · exact reset _ (h.of_keeps (report.trans (left _ _)))
    · exact reset _ (h.of_keeps ((report.trans (Block.keepsBoards_handleSegment _ p u _)).trans (left _ _)))
  · exact h

/-! ### CLOSING -/

theorem Board.judge_marks (serial : Serial) (v : BoardVerdict) (x : Board) : (x.judge serial v).marks = x.marks := by
  unfold Board.judge
  split
  · split <;> rfl
  · rfl

/-- Only the board of this serial is judged (R105). -/
theorem Board.judge_imaging {serial : Serial} {v : BoardVerdict} {x : Board} {f : FrameNumber}
    (h : (x.judge serial v).state = .imaging f) : x.state = .imaging f ∧ x.serial ≠ serial := by
  unfold Board.judge at h
  split at h
  · split at h
    · cases h
    · next other => exact ⟨h, other⟩
  · next other => exact absurd h (other f)

/-- The verdict moves no board (R105). -/
theorem Block.finishBoard_marks (b : Block) :
    b.finishBoard.line.queue.map Board.marks = b.line.queue.map Board.marks
      ∧ b.finishBoard.line.serial = b.line.serial ∧ b.finishBoard.line.config = b.line.config := by
  unfold Block.finishBoard
  split
  · simp
  · split
    · simp [Board.judge_marks]
    · simp

/-- The verdict leaves no board IMAGING (R105, R107, R108). -/
theorem Block.QueueSound.finishBoard (h : b.QueueSound) :
    b.finishBoard.QueueSound ∧ ∀ x ∈ b.finishBoard.line.queue, ∀ f, x.state ≠ .imaging f := by
  suffices free : ∀ x ∈ b.finishBoard.line.queue, ∀ f, x.state ≠ .imaging f by
    obtain ⟨queue, serial, config⟩ := b.finishBoard_marks
    exact ⟨h.of_marks queue serial config fun x hx f hf => absurd hf (free x hx f), free⟩
  unfold Block.finishBoard
  split
  · next unmatched =>
    intro x hx f hf
    have := (h.imaging x hx f hf).2.2
    simp [unmatched] at this
  · next serial bound =>
    split
    · intro x hx f hf
      obtain ⟨y, hy, rfl⟩ := List.mem_map.1 hx
      obtain ⟨hf, other⟩ := Board.judge_imaging hf
      have := (h.imaging y hy f hf).2.2
      exact other (Option.some.inj (this.symm.trans bound))
    · next gone =>
      intro x hx f hf
      have own := (h.imaging x hx f hf).2.2
      refine gone (List.any_eq_true.2 ⟨x, hx, ?_⟩)
      simpa [Board.isImaging, hf, bound] using own.symm

/-- CLOSING judges the bound board, and a reset that waited empties the queue (R41, R44). -/
theorem Block.QueueSound.closingWork (h : b.QueueSound) : b.closingWork.QueueSound := by
  unfold Block.closingWork
  split
  · obtain ⟨sound, judged⟩ := (h.of_keeps (.of_eq (by simp) (by simp) : b.KeepsBoards b.closeVerdicts)).finishBoard
    unfold Block.resetAfterClosing
    split
    · exact Block.takeInspectionReset_queueSound _
    · exact sound.of_none_imaging (by simp) judged
  · exact h

/-! ### The mailbox -/

/-- SET_LINE changes the configuration under an empty queue alone (R190). -/
theorem Block.QueueSound.setLine (h : b.QueueSound) : b.setLine.1.QueueSound := by
  unfold Block.setLine
  split
  · exact h
  · split
    · exact h
    · next empty =>
      split
      · exact h
      · refine .of_empty ?_
        have : b.line.queue = [] := by simpa using empty
        unfold Block.setGateMode
        split <;> simp [this]

theorem Block.keepsBoards_setPortPolicy (b : Block) : b.KeepsBoards b.setPortPolicy.1 := by
  unfold Block.setPortPolicy
  simp only
  split
  · split
    · exact b.keepsBoards_setPort _ _
    · exact (b.keepsBoards_setPort _ _).trans (.of_eq rfl rfl)
  · exact .refl b

theorem Block.keepsBoards_resumePort (b : Block) : b.KeepsBoards b.resumePort.1 := by
  unfold Block.resumePort
  split
  · exact .refl b
  · split
    · exact .refl b
    · split
      · exact .refl b
      · exact (Block.keepsBoards_askRewrite _).after (b.keepsBoards_setPort _ _)

theorem Block.keepsBoards_releaseGate (b : Block) : b.KeepsBoards b.releaseGate.1 := by
  refine b.quiet_releaseGate.keepsBoards ?_
  unfold Line.SameBoards Block.releaseGate
  split <;> simp

theorem Block.keepsBoards_clearLog (b : Block) : b.KeepsBoards b.clearLog.1 := by
  unfold Block.clearLog
  split
  · exact .of_eq rfl rfl
  · exact .refl b

theorem Block.keepsBoards_loadProgram (b : Block) : b.KeepsBoards b.loadProgram.1 := by
  unfold Block.loadProgram
  simp only
  split
  · exact .refl b
  · split
    · exact .refl b
    · exact .of_eq (by simp) (by simp)

theorem Block.keepsBoards_abortLoad (b : Block) : b.KeepsBoards b.abortLoad.1 := by
  unfold Block.abortLoad
  split
  · exact .of_eq (by simp) (by simp)
  · exact .refl b

theorem Block.keepsBoards_setRing (b : Block) : b.KeepsBoards b.setRing.1 := by
  unfold Block.setRing
  simp only
  split_ifs
  · exact .refl b
  · exact .refl b
  · exact .of_eq (by simp) rfl

theorem Block.QueueSound.inspectionReset (h : b.QueueSound) (inHand : Bool) :
    (b.inspectionReset inHand).1.QueueSound := by
  unfold Block.inspectionReset
  split_ifs
  · exact h
  · exact h.of_keeps (.of_eq rfl rfl)
  · exact b.takeInspectionReset_queueSound

theorem Block.QueueSound.decideCommand (h : b.QueueSound) (kind : Nat) (inHand : Bool) :
    (b.decideCommand kind inHand).1.QueueSound := by
  unfold Block.decideCommand
  split
  · exact h.of_keeps b.keepsBoards_loadProgram
  · exact h.of_keeps b.keepsBoards_abortLoad
  · exact h.of_keeps b.keepsBoards_setRing
  · exact h.setLine
  · exact h.of_keeps b.keepsBoards_setPortPolicy
  · exact h.of_keeps b.keepsBoards_clearLog
  · exact h.of_keeps b.keepsBoards_resumePort
  · exact h.of_keeps b.keepsBoards_releaseGate
  · exact h.inspectionReset inHand
  · exact h

theorem Block.keepsBoards_recordCommand (b : Block) (kind : Nat) (o : CommandOutcome) :
    b.KeepsBoards (b.recordCommand kind o) := .of_eq (by simp) (by simp)

/-- What the mailbox decoder makes of a copied write (R188). -/
theorem Block.QueueSound.decodeCopy (h : b.QueueSound) (c : MailboxCopy) (inHand : Bool) :
    (b.decodeCopy c inHand).QueueSound := by
  have merged : (b.mergeCopy c).QueueSound := h.of_keeps (.of_eq (by simp) (by simp))
  have command : ∀ d : Block, d.QueueSound → (d.takeCommand inHand).QueueSound := fun d hd => by
    unfold Block.takeCommand
    exact (hd.decideCommand d.decoder.kind inHand).of_keeps (Block.keepsBoards_recordCommand _ _ _)
  simp only [Block.decodeCopy]
  split_ifs
  · exact command _ (merged.of_keeps (Block.keepsBoards_takeConsumer _ _))
  · exact merged.of_keeps (Block.keepsBoards_takeConsumer _ _)
  · exact command _ merged
  · exact merged

/-- A grant sends a request; a system write into the mailbox window reaches the decoder (R163, R189). -/
theorem Block.QueueSound.arbiterGrant (h : b.QueueSound) (pick : Nat) (inHand : Bool) :
    (b.arbiterGrant pick inHand).QueueSound := by
  unfold Block.arbiterGrant
  split
  · unfold Block.grant
    split
    · next i w _ =>
      have sent : ∀ tag, (b.forwardWrite i w tag).QueueSound := fun tag =>
        h.of_keeps ((b.keepsBoards_setPort i _).trans (.of_eq rfl rfl))
      unfold Block.afterWrite
      split
      · split
        · exact (sent _).of_keeps (Block.keepsBoards_report _ _)
        · split
          · exact sent _
          · exact (sent _).decodeCopy _ inHand
      · exact sent _
    · exact h.of_keeps ((b.keepsBoards_setPort _ _).trans (.of_eq rfl rfl))
    · exact h.of_keeps (.of_eq (by simp [Block.forwardInternal]) (by simp [Block.forwardInternal]))
  · exact h

/-! ### Every command -/

theorem exec_keeps_queueSound {c : Instr} {s t : State} (hs : s.block.QueueSound) (h : exec c s = .next t) :
    t.block.QueueSound := by
  have keeps : ∀ f : Block → Block, s.onBlock f = .next t → s.block.KeepsBoards (f s.block) → t.block.QueueSound :=
    fun f hf hk => onBlock_block hf ▸ hs.of_keeps hk
  have copied : ∀ c inHand, (s.onBlock fun b => b.decodeCopy c inHand) = .next t → t.block.QueueSound :=
    fun c inHand hf => onBlock_block hf ▸ hs.decodeCopy c inHand
  have command : ∀ {kind fields inHand}, (s.onBlock fun b => b.commandWrite kind fields inHand) = .next t →
      t.block.QueueSound := fun hf => copied _ _ hf
  cases c with
  | fullReset kind straps contain => cases h; exact .of_empty rfl
  | writeRequest i r => exact keeps (·.writeRequest i r) h (s.block.keepsBoards_writeRequest i r)
  | readRequest i r => exact keeps (·.readRequest i r) h (s.block.keepsBoards_readRequest i r)
  | writeBeat i x => exact keeps (·.writeBeat i x) h (s.block.keepsBoards_writeBeat i x)
  | burstOffer => cases h; exact hs.burstOffer
  | segment => cases h; exact hs.segment
  | closing => cases h; exact hs.closingWork
  | encoderStep x y => cases h; exact hs.encoderSample (x, y)
  | illegalStep => exact keeps Block.illegalStep h (s.block.keepsBoards_illegalStep)
  | boardEdgeTrailing => cases h; exact hs.boardEdgeTrailing
  | boardEdgeLeading => cases h; exact hs.boardEdgeLeading
  | boardEdgeSample x => cases h; exact hs.edgeSample x
  | deadTimeEnd => exact keeps Block.deadTimeEnd h (s.block.keepsBoards_deadTimeEnd)
  | arbiterGrant pick inHand => cases h; exact hs.arbiterGrant pick inHand
  | mailboxShadowWrite bytes => exact copied _ _ h
  | memoryResponse tag r data =>
    exact keeps (·.memoryResponse tag r data) h (s.block.keepsBoards_memoryResponse tag r data)
  | responseTimerExpiry tag => exact keeps (·.responseTimerExpiry tag) h (s.block.keepsBoards_responseTimerExpiry tag)
  | fetchReadIssue => exact keeps Block.fetchReadIssue h (s.block.keepsBoards_fetchReadIssue)
  | ringSlotWrite => exact keeps Block.ringSlotWrite h (s.block.keepsBoards_ringSlotWrite)
  | internalHandover => exact keeps Block.internalHandover h (s.block.keepsBoards_internalHandover)
  | consumerUpdate m a bytes => exact copied _ _ h
  | loadProgram a => exact command h
  | abortLoad => exact command h
  | setRing a n i => exact command h
  | setLine a => exact command h
  | setPortPolicy i p f l => exact command h
  | clearLog n => exact command h
  | resumePort n => exact command h
  | releaseGate => exact command h
  | inspectionReset inHand => exact command h
  | unknownKind k => exact command h

/-- Settles O56: a command enters, takes, binds or judges boards, or leaves the queue as it is; so does a tick. -/
theorem everyStepKeepsTheBoardQueueSound : Obligations.EveryStepKeepsTheBoardQueueSound := by
  unfold Obligations.EveryStepKeepsTheBoardQueueSound
  intro s t hs h
  unfold step at h
  split at h
  · cases h
    exact hs.of_keeps (s.block.keepsBoards_elapse 1)
  · next rest _ => exact exec_keeps_queueSound (s := { s with pending := rest }) hs h

end Sys2Proof.Machine
end

section
/-! SUPPORT. The encoder (R97, R99, R100), the window end at a change of the position (R117), and the frame timeout
(R38, R40; O15). -/

namespace Sys2Proof.Machine

/-! ### The step of a sample (R99) -/

/-- The legal steps that move the position up under NORMAL (R99). -/
def upSteps : List ((Bool × Bool) × Bool × Bool) :=
  [((false, false), (true, false)), ((true, false), (true, true)), ((true, true), (false, true)),
    ((false, true), (false, false))]

/-- A sample that differs in one input is a legal step. -/
theorem stepUnderNormal_legal : ∀ {last x : Bool × Bool}, xor (last.1 ≠ x.1) (last.2 ≠ x.2) = true →
    last ≠ x ∧ stepUnderNormal last x = some (if (last, x) ∈ upSteps then 1 else -1) := by
  decide

/-- A sample that differs in both inputs is none. -/
theorem stepUnderNormal_both : ∀ a b : Bool, (a, b) ≠ (!a, !b) ∧ stepUnderNormal (a, b) (!a, !b) = none := by
  decide

/-- The position after a legal step: REVERSED turns its direction round (R99). -/
theorem position_step (position : Position) (sense : Sense) (up : Prop) [Decidable up] :
    position + BitVec.ofInt 32 (sense.apply (if up then 1 else -1)) =
      if xor (decide up) (decide (sense = .reversed)) = true then position + 1 else position - 1 := by
  have down : position + 4294967295#32 = position - 1#32 := by rw [BitVec.sub_eq_add_neg]; rfl
  by_cases h : up <;> cases sense <;> simp [h, Sense.apply, down]

/-! ### The end of the gate window (R117) -/

/-- A line driven to an end goes inactive into DEAD when the position has reached it; otherwise nothing changes. -/
theorem Line.windowEnd_eq (l : Line) : l.windowEnd = { l with driver :=
    match l.driver with
    | .driving kind (some endAt) o =>
      if 0 ≤ (l.position - endAt).toInt then
        (if l.config.deadTime = 0 then .idle else .dead kind l.config.deadTime none)
      else .driving kind (some endAt) o
    | d => d } := by
  obtain ⟨_, _, _, _, _, _, _, _, _, driver, _⟩ := l
  cases driver with
  | driving kind endAt o =>
    cases endAt with
    | none => rfl
    | some endAt =>
      simp only [Line.windowEnd, reached, decide_eq_true_eq, Line.enterDead, Line.endDead]
      split_ifs <;> rfl
  | idle => rfl
  | dead line left pending => rfl

/-! ### A change of the position (R99) -/

/-- A legal step, and the tests that follow it in their order (R99). -/
theorem Block.legalStep_eq (b : Block) (x : Bool × Bool) (d : Int) : b.legalStep x d =
    (Block.dueBoards b.line.queue.length { b with line :=
      ({ b.line with lastSample := some x, position := b.line.position + BitVec.ofInt 32 d } : Line).windowEnd
    }).timeoutTest := by
  simp only [Block.legalStep, Block.positionChanged, Line.windowEnd_frame]
  rfl

/-- A sample that differs from the last one in one input (R99). -/
theorem Block.encoderSample_legal {b : Block} {last x : Bool × Bool} (hl : b.line.lastSample = some last)
    (h : xor (last.1 ≠ x.1) (last.2 ≠ x.2) = true) :
    b.encoderSample x = b.legalStep x (b.line.config.sense.apply (if (last, x) ∈ upSteps then 1 else -1)) := by
  obtain ⟨other, legal⟩ := stepUnderNormal_legal h
  simp only [Block.encoderSample, hl, if_neg other, legal]

/-- A sample that differs from the last one in both inputs (R100). -/
theorem Block.encoderSample_illegal {b : Block} {x y : Bool} (hl : b.line.lastSample = some (x, y)) :
    b.encoderSample (!x, !y) = b.illegalStep := by
  obtain ⟨other, illegal⟩ := stepUnderNormal_both x y
  simp only [Block.encoderSample, Block.illegalStep, hl, if_neg other, illegal]

/-! ### The close of a frame (R38, R40) -/

/-- A close of an OPEN frame (R40). -/
theorem Block.closeFrame_opened {b : Block} (h : b.tracker.state = .opened) (kind : CloseKind) : b.closeFrame kind =
    { b.askRewrite with tracker := { b.tracker with state := .closing, closeKind := some kind } } := by
  have asked := Block.askRewrite_congr
    (b := { b with tracker := { b.tracker with state := .closing, closeKind := some kind } }) (c := b) rfl rfl
  simp only [Block.closeFrame, h]
  apply Block.eq_of_parts
  case h4 => exact asked.1
  case h14 => exact asked.2
  all_goals simp

/-- A close of a frame that is not OPEN (R40). -/
theorem Block.closeFrame_other {b : Block} (h : b.tracker.state ≠ .opened) (kind : CloseKind) :
    b.closeFrame kind = b := by
  unfold Block.closeFrame
  split
  · next ho => exact absurd ho h
  · rfl

/-- Settles O15. -/
theorem encoderStepMovesOrReports : Obligations.EncoderStepMovesOrReports := by
  unfold Obligations.EncoderStepMovesOrReports
  refine ⟨fun s a b => ⟨fun hl => ?_, fun hl => ?_, fun last hl hx => ?_⟩,
    fun b => ⟨fun due => ?_, fun due => ?_,
      fun kind => ⟨fun h => b.closeFrame_other h kind, fun h => Block.closeFrame_opened h kind⟩⟩,
    fun s a b hl => ⟨?_, ?_⟩⟩
  · show Host.Outcome.next (s.withBlock (s.block.encoderSample (a, b))) = _
    simp only [Block.encoderSample, hl]
    rfl
  · show Host.Outcome.next (s.withBlock (s.block.encoderSample (a, b))) = _
    simp only [Block.encoderSample, hl, if_true]
    rfl
  · show Host.Outcome.next (s.withBlock (s.block.encoderSample (a, b))) = _
    rw [Block.encoderSample_legal hl hx, Block.legalStep_eq, position_step, Line.windowEnd_eq]
    rfl
  · exact if_neg due
  · refine (if_pos due).trans ?_
    rcases hb : b.tracker.binding <;> rfl
  · show Host.Outcome.next (s.withBlock s.block.illegalStep) = _
    simp only [Block.illegalStep, hl]
    rfl
  · show Host.Outcome.next (s.withBlock (s.block.encoderSample (!a, !b))) = _
    rw [Block.encoderSample_illegal hl]
    rfl

end Sys2Proof.Machine
end

section
/-! SUPPORT. The results of joints, with and without a record (R81, R83, R90), and how a result given is counted and
offered (R92, R93, R169, R170; O14). -/

namespace Sys2Proof.Machine

/-! ### Results (R81, R83, R90) -/

theorem Program.labelWeight_eq {p : Program} {i : Nat} {j : Joint} (h : p.joints[i]? = some j) :
    p.labelWeight i = (j.label, j.weight) := by
  simp only [Program.labelWeight, h]

/-- The result of a joint that has no record (R90). -/
def Joint.absentResult (j : Joint) (frame : FrameNumber) (index : Nat) (cause : Cause) : JointResult where
  frame := frame
  index := index
  label := j.label
  verdict := .unreadable
  cause := some cause
  defects := ⟨false, false, false, false⟩
  measurement := none
  bridgedRows := none
  order := false
  incomplete := false
  advisory := decide (j.weight = .advisory)

theorem Program.absentResult_eq {p : Program} {i : Nat} {j : Joint} (h : p.joints[i]? = some j) (frame : FrameNumber)
    (cause : Cause) : p.absentResult frame i cause = j.absentResult frame i cause := by
  simp only [Program.absentResult, Program.labelWeight_eq h]
  rfl

/-- A fraction of an empty count is 0, as a division by 0 is (R83). -/
theorem fractionOf_eq (n v : Nat) : fractionOf n v = 256 * n / v := by
  unfold fractionOf
  split
  · next h => simp [h]
  · rfl

theorem Accumulator.measure_eq (a : Accumulator) : a.measure =
    ⟨256 * a.counts.valid / a.region.area, 256 * a.counts.sat / a.counts.valid, 256 * a.counts.flat / a.counts.valid,
      256 * a.counts.slope / a.counts.valid, 256 * a.counts.steep / a.counts.valid,
      256 * a.counts.dark / a.counts.valid, a.counts.sumS / a.counts.valid⟩ := by
  have mean : (if a.counts.valid = 0 then 0 else a.counts.sumS / a.counts.valid) = a.counts.sumS / a.counts.valid := by
    split
    · next h => simp [h]
    · rfl
  simp only [Accumulator.measure, fractionOf_eq, mean]

/-- A record handed over without being complete is UNREADABLE (R76, R84). -/
theorem Accumulator.result_forced (a : Accumulator) (p : Program) (frame : FrameNumber) :
    (a.result p frame .forced).verdict = .unreadable := rfl

/-! ### Results given (R92, R93, R169, R170) -/

/-- What a result adds to the tally (R92). -/
theorem Tally.add_eq (t : Tally) (r : JointResult) : t.add r =
    { counts := t.counts.add r.verdict
      critical := t.critical || (decide (r.verdict ≠ .ok) && !r.advisory)
      lost := t.lost } := by
  have fails : (r.verdict != .ok) = decide (r.verdict ≠ .ok) := by cases r.verdict <;> rfl
  simp only [Tally.add, fails, Bool.and_comm]

theorem ReportMode.admits_iff (m : ReportMode) (v : Verdict) :
    m.admits v = true ↔ m = .all ∨ (m = .defects ∧ v ≠ .ok) := by
  cases m <;> simp [ReportMode.admits]

/-- A result that the report mode turns away is counted alone (R169). -/
theorem Block.giveResult_hidden {b : Block} {r : JointResult} (h : ¬ b.line.config.report.admits r.verdict = true) :
    b.giveResult r = { b with tally := b.tally.add r } := by
  simp [Block.giveResult, Block.offerJoint, h]

/-- A result with room for it is queued (R169, R170). -/
theorem Block.giveResult_queued {b : Block} {r : JointResult} (h : b.line.config.report.admits r.verdict = true)
    (room : b.writer.queue.length < 24) : b.giveResult r =
      { b with tally := b.tally.add r, writer := { b.writer with queue := b.writer.queue ++ [.joint r] } } := by
  simp [Block.giveResult, Block.offerJoint, h, Config.jointLimit, room]

/-- A result without room is dropped, and counted as lost (R93, R170). -/
theorem Block.giveResult_lost {b : Block} {r : JointResult} (h : b.line.config.report.admits r.verdict = true)
    (full : 24 ≤ b.writer.queue.length) : b.giveResult r =
      { b with
        tally := { b.tally.add r with lost := b.tally.lost + 1 }
        writer := { b.writer with drops := min 4294967295 (b.writer.drops + 1) } } := by
  simp only [Block.giveResult, Block.offerJoint, h, Config.jointLimit, Nat.not_lt.2 full]
  rfl

/-- A result given adds its verdict to the counts, whatever becomes of it (R92). -/
@[simp] theorem Block.giveResult_counts (b : Block) (r : JointResult) :
    (b.giveResult r).tally.counts = b.tally.counts.add r.verdict := by
  unfold Block.giveResult Block.offerJoint
  split_ifs <;> rfl

/-- As many UNREADABLE results as there are items are counted. -/
theorem unreadable_counts {α : Type} (l : List α) {give : Block → α → Block}
    (h : ∀ x ∈ l, ∀ b, (give b x).tally.counts = b.tally.counts.add .unreadable) (b : Block) :
    (l.foldl give b).tally.counts = { b.tally.counts with unreadable := b.tally.counts.unreadable + l.length } := by
  induction l generalizing b with
  | nil => rfl
  | cons x l ih =>
    rw [List.foldl_cons, ih (fun y hy => h y (List.mem_cons_of_mem _ hy)), h x List.mem_cons_self b]
    simp only [VerdictCounts.add, List.length_cons, VerdictCounts.mk.injEq, true_and]
    omega

end Sys2Proof.Machine
end

section
/-! SUPPORT. What CLOSING hands over, the verdict of its board, and the return to IDLE (R41; O14). -/

namespace Sys2Proof.Machine

variable {b : Block} {p : Program}

/-! ### Steps 1 and 2 of R41 -/

theorem Block.closeVerdicts_of_program (hp : b.store.activeProgram = some p) :
    b.closeVerdicts = (b.handOverAll p).handOverUnreached p := by
  simp only [Block.closeVerdicts, hp]

theorem Block.handOverAll_joints (b : Block) (p : Program) : (b.handOverAll p).joints = ⟨[], b.joints.pointer⟩ := by
  have kept := fun c l => (Block.judgeEach_frame c p
    (fun a => if a.complete b.tracker.progress then .completed else .forced) l).2.2.2.2.2.2.2.1
  simp only [Block.handOverAll, kept]

/-- The set is empty afterwards, the pointer at the joint count or beyond (R76, R77). -/
theorem Block.closeVerdicts_joints (hp : b.store.activeProgram = some p) :
    b.closeVerdicts.joints = ⟨[], max b.joints.pointer p.joints.length⟩ := by
  simp only [Block.closeVerdicts_of_program hp, Block.handOverUnreached, Block.judgeAbsents_frame,
    Block.handOverAll_joints]

/-- With no record open and no joint left nothing is handed over. -/
theorem Block.closeVerdicts_nothing (hp : b.store.activeProgram = some p) (hr : b.joints.records = [])
    (hl : p.joints.length ≤ b.joints.pointer) : b.closeVerdicts = b := by
  have same : ({ b.joints with records := [] } : JointSet) = b.joints := by rw [← hr]
  rw [Block.closeVerdicts_of_program hp]
  simp only [Block.handOverAll, Block.handOverUnreached, hr, same, List.foldl_nil, Nat.sub_eq_zero_of_le hl,
    List.range'_zero, max_eq_left hl]

/-- What has been handed over once is not handed over again. -/
theorem Block.closeVerdicts_again (hp : b.store.activeProgram = some p) :
    b.closeVerdicts.closeVerdicts = b.closeVerdicts := by
  have joints := Block.closeVerdicts_joints hp
  exact Block.closeVerdicts_nothing (p := p) (by simpa using hp) (by simp [joints]) (by simp [joints])

/-- The joints without a record get their results in table order, with the labels and weights of their entries. -/
theorem Block.judgeAbsents_eq (frame : FrameNumber) (cause : Cause) {l : List (Joint × Nat)}
    (hl : ∀ x ∈ l, p.joints[x.2]? = some x.1) (hf : b.tracker.number = frame) :
    (l.map (·.2)).foldl (Block.judgeAbsent p cause) b =
      l.foldl (fun c x => c.giveResult (x.1.absentResult frame x.2 cause)) b := by
  induction l generalizing b with
  | nil => rfl
  | cons x l ih =>
    obtain ⟨hx, hl⟩ := List.forall_mem_cons.1 hl
    have judged : Block.judgeAbsent p cause b x.2 = b.giveResult (x.1.absentResult frame x.2 cause) := by
      rw [Block.judgeAbsent, hf, Program.absentResult_eq hx]
    rw [List.map_cons, List.foldl_cons, List.foldl_cons, judged, ih hl (by simpa using hf)]

/-- The joints from the pointer on, with their table indices. -/
theorem getElem?_of_mem_zipIdx_drop {l : List Joint} {n : Nat} {x : Joint × Nat} (h : x ∈ (l.drop n).zipIdx n) :
    l[x.2]? = some x.1 := by
  obtain ⟨k, hk⟩ := List.mem_iff_getElem?.1 h
  rw [List.getElem?_zipIdx, Option.map_eq_some_iff] at hk
  obtain ⟨j, hj, rfl⟩ := hk
  simpa using hj

/-- Step 2 of R41: NOT_REACHED for every joint not admitted (R77, R90). -/
theorem Block.handOverUnreached_eq {frame : FrameNumber} {n : Nat} (hf : b.tracker.number = frame)
    (hj : b.joints = ⟨[], n⟩) : b.handOverUnreached p = ((p.joints.drop n).zipIdx n).foldl
      (fun c x => c.giveResult (x.1.absentResult frame x.2 .notReached))
      { b with joints := { records := [], pointer := max n p.joints.length } } := by
  have indices : List.range' n (p.joints.length - n) = ((p.joints.drop n).zipIdx n).map (·.2) := by
    simp [List.zipIdx_map_snd]
  simp only [Block.handOverUnreached, hj, indices]
  exact Block.judgeAbsents_eq frame .notReached (fun x hx => getElem?_of_mem_zipIdx_drop hx) hf

/-- Both steps, the set emptied first (R41, R76, R77). -/
theorem Block.closeVerdicts_eq (hp : b.store.activeProgram = some p) : b.closeVerdicts =
    ((p.joints.drop b.joints.pointer).zipIdx b.joints.pointer).foldl
      (fun c x => c.giveResult (x.1.absentResult b.tracker.number x.2 .notReached))
      { b.joints.records.foldl (fun c a =>
          c.judgeRecord p (if a.complete b.tracker.progress then .completed else .forced) a.closeGapRow)
        { b with joints := { b.joints with records := [] } } with
        joints := { records := [], pointer := max b.joints.pointer p.joints.length } } := by
  have frame : (b.handOverAll p).tracker.number = b.tracker.number := by simp
  rw [Block.closeVerdicts_of_program hp, Block.handOverUnreached_eq frame (b.handOverAll_joints p)]
  rfl

/-- Every record open and every joint not reached is counted UNREADABLE, when no record is complete (R76, R77, R92). -/
theorem Block.closeVerdicts_counts (hp : b.store.activeProgram = some p)
    (unfinished : ∀ a ∈ b.joints.records, a.complete b.tracker.progress = false) :
    b.closeVerdicts.tally.counts = { b.tally.counts with unreadable :=
      b.tally.counts.unreadable + b.joints.records.length + (p.joints.length - b.joints.pointer) } := by
  rw [Block.closeVerdicts_eq hp, unreadable_counts _ fun x _ c => c.giveResult_counts _]
  have forced := unreadable_counts b.joints.records (give := fun c a =>
    c.judgeRecord p (if a.complete b.tracker.progress then .completed else .forced) a.closeGapRow)
    (fun a ha c => by simp [Block.judgeRecord, unfinished a ha, Accumulator.result_forced])
    { b with joints := { b.joints with records := [] } }
  simp only [forced, List.length_zipIdx, List.length_drop]

/-! ### Step 3 of R41: the board -/

theorem Block.boardVerdict_eq {kind : CloseKind} (hk : b.tracker.closeKind = some kind) :
    b.boardVerdict = if b.tally.critical = true ∨ kind ≠ .normal then .reject else .pass := by
  cases kind <;> simp [Block.boardVerdict, hk]

/-- The board result of a frame that has closed (R106). -/
def Block.frameResult (b : Block) (p : Program) (kind : CloseKind) (serial : Serial) (late unmatched : Bool)
    (action : GateAction) : BoardResult where
  frame := b.tracker.number
  serial := serial
  programId := p.header.programId
  verdict := if b.tally.critical = true ∨ kind ≠ .normal then .reject else .pass
  counts := b.tally.counts
  lost := b.tally.lost
  late := late
  notImaged := false
  unmatched := unmatched
  truncated := decide (kind = .truncated)
  timeout := decide (kind = .timeout)
  action := action

theorem Block.closeResult_eq {kind : CloseKind} (hk : b.tracker.closeKind = some kind)
    (hp : b.store.activeProgram = some p) (serial : Serial) (late unmatched : Bool) (action : GateAction) :
    b.closeResult serial late unmatched action = b.frameResult p kind serial late unmatched action := by
  have cut : ∀ k, (some kind == some k) = decide (kind = k) := fun k => by cases kind <;> cases k <;> rfl
  simp only [Block.closeResult, Block.frameResult, Block.boardVerdict_eq hk, Block.activeId, hp, hk, cut]

/-- An UNMATCHED frame has a record without a board (R107). -/
theorem Block.finishBoard_unmatched (h : b.tracker.binding = none) :
    b.finishBoard = b.offerBoard (b.closeResult 0 false true .none) := by
  simp only [Block.finishBoard, h]

/-- A board of another serial is not judged (R105). -/
theorem Board.judge_other {serial : Serial} {v : BoardVerdict} {x : Board} (h : x.serial ≠ serial) :
    x.judge serial v = x := by
  unfold Board.judge
  split
  · exact if_neg h
  · rfl

/-- The bound board, still IMAGING, is JUDGED where it stands (R105). -/
theorem Block.finishBoard_judges {before after : List Board} {board : Board} {f : FrameNumber}
    (h : b.tracker.binding = some board.serial) (hq : b.line.queue = before ++ board :: after)
    (hs : board.state = .imaging f) (apart : ∀ x ∈ before ++ after, x.serial ≠ board.serial) :
    b.finishBoard = ({ b with line := { b.line with
      queue := before ++ { board with state := .judged f b.boardVerdict } :: after } } : Block).offerBoard
        (b.closeResult board.serial false false b.line.gateMode.expected) := by
  have bound : b.line.queue.any (Board.isImaging board.serial) = true := by
    simp [hq, Board.isImaging, hs]
  have others : ∀ l : List Board, (∀ x ∈ l, x.serial ≠ board.serial) →
      l.map (Board.judge board.serial b.boardVerdict) = l :=
    fun l hl => (List.map_congr_left fun x hx => Board.judge_other (hl x hx)).trans l.map_id
  have judged : b.line.queue.map (Board.judge board.serial b.boardVerdict) =
      before ++ { board with state := .judged f b.boardVerdict } :: after := by
    rw [hq, List.map_append, List.map_cons, others before fun x hx => apart x (List.mem_append_left _ hx),
      others after fun x hx => apart x (List.mem_append_right _ hx)]
    simp [Board.judge, hs]
  simp only [Block.finishBoard, h, bound, if_true, judged]

/-- The action state that the late note holds for the record of its board (R108). -/
def Line.lateAction (l : Line) : GateAction :=
  match l.lateNote with
  | some note => note.action
  | none => .none

/-- A board that has left the queue has its late note, which is removed (R108). -/
theorem Block.finishBoard_late {serial : Serial} (h : b.tracker.binding = some serial)
    (left : ∀ x ∈ b.line.queue, ∀ f, x.state = .imaging f → x.serial ≠ serial) :
    b.finishBoard = ({ b with line := { b.line with lateNote := none } } : Block).offerBoard
      (b.closeResult serial true false b.line.lateAction) := by
  have gone : ¬ b.line.queue.any (Board.isImaging serial) = true := by
    rw [List.any_eq_true]
    rintro ⟨x, hx, hi⟩
    unfold Board.isImaging at hi
    split at hi
    · next f hf => exact left x hx f hf (by simpa using hi)
    · cases hi
  simp only [Block.finishBoard, h, if_neg gone]
  rfl

/-! ### Step 4 of R41, and the whole -/

/-- The verdict given, the frame returns to IDLE and a rewrite is asked for (R41). -/
theorem Block.finishBoard_returnToIdle {line : Line} {r : BoardResult}
    (h : b.finishBoard = ({ b with line := line } : Block).offerBoard r) : b.finishBoard.returnToIdle =
      { b.askRewrite with
        tracker := { b.tracker with state := .idle, closeKind := none }
        line := line
        writer := b.writer.offer (.board r) } := by
  rw [h]
  have asked := Block.askRewrite_congr (b := { ({ b with line := line } : Block).offerBoard r with
    tracker := { b.tracker with state := .idle, closeKind := none } }) (c := b) rfl rfl
  apply Block.eq_of_parts
  case h4 => exact asked.1
  case h14 => exact asked.2
  all_goals simp [Block.returnToIdle, Block.offerBoard]

/-- CLOSING with nothing left to hand over and no reset pending, by what the binding makes of the board (R41). -/
theorem execClosing_finishes {s : State} {kind : CloseKind} {line : Line} {serial : Serial} {late unmatched : Bool}
    {action : GateAction} (hs : s.block.tracker.state = .closing) (hb : s.block.tracker.burst = none)
    (hk : s.block.tracker.closeKind = some kind) (hp : s.block.store.activeProgram = some p)
    (hr : s.block.joints.records = []) (hl : p.joints.length ≤ s.block.joints.pointer)
    (hd : s.block.decoder.resetPending = false)
    (hf : s.block.finishBoard = ({ s.block with line := line } : Block).offerBoard
      (s.block.closeResult serial late unmatched action)) :
    exec .closing s = .next (s.withBlock { s.block.askRewrite with
      tracker := { s.block.tracker with state := .idle, closeKind := none }
      line := line
      writer := s.block.writer.offer (.board (s.block.frameResult p kind serial late unmatched action)) }) := by
  have done : s.block.closingWork = s.block.closingDone := by
    simp [Block.closingWork_eq _ hs hb, Block.resetAfterClosing, Block.closingDone_decoder, hd]
  show Host.Outcome.next (s.withBlock s.block.closingWork) = _
  rw [done, Block.closingDone, Block.closeVerdicts_nothing hp hr hl, Block.finishBoard_returnToIdle hf,
    Block.closeResult_eq hk hp]

/-- Settles O14. -/
theorem closingJudgesBoardAndJoints : Obligations.ClosingJudgesBoardAndJoints := by
  unfold Obligations.ClosingJudgesBoardAndJoints
  refine ⟨fun s p hs hb hp => ?_, fun b p hp => Block.closeVerdicts_eq hp, fun s p kind hs hb hk hp hr hl hd => ?_,
    fun b p hp hr => ⟨?_, ?_, Block.closeVerdicts_counts hp hr⟩, fun b p kind a j hj => ?_, fun b r => ?_⟩
  · show Host.Outcome.next (s.withBlock s.block.closingWork) =
      Host.Outcome.next (s.withBlock s.block.closeVerdicts.closingWork)
    rw [Block.closingWork_eq _ hs hb, Block.closingWork_eq _ (by simpa using hs) (by simpa using hb), Block.closingDone,
      Block.closingDone, Block.closeVerdicts_again hp]
  · intro verdict closed
    refine ⟨fun before board after f hbound hq hi apart => ?_, fun hbound => ?_, fun serial hbound left => ?_⟩
    · have judges := Block.finishBoard_judges hbound hq hi apart
      rw [Block.boardVerdict_eq hk] at judges
      exact execClosing_finishes hs hb hk hp hr hl hd judges
    · exact execClosing_finishes hs hb hk hp hr hl hd (Block.finishBoard_unmatched hbound)
    · exact execClosing_finishes hs hb hk hp hr hl hd (Block.finishBoard_late hbound left)
  · rw [Block.closeVerdicts_joints hp]
  · rw [Block.closeVerdicts_joints hp]
  · simp only [Block.judgeRecord, Accumulator.result, Program.labelWeight_eq hj, Accumulator.measure_eq]
    rfl
  · simp only [← ReportMode.admits_iff]
    refine ⟨fun h => ?_, fun h room => ?_, fun h full => ?_⟩
    · rw [Block.giveResult_hidden h, Tally.add_eq]
      rfl
    · rw [Block.giveResult_queued h room, Tally.add_eq]
      rfl
    · rw [Block.giveResult_lost h full, Tally.add_eq]
      rfl

end Sys2Proof.Machine
end

section
/-! SUPPORT. Admission (R60 to R64), watermark notices (R70 to R73) and what a segment meets (R30, R56), each as the
rules say it (O11). -/

namespace Sys2Proof.Machine

variable {b : Block} {p : Program}

/-! ### What a segment meets (R30, R56, R67) -/

theorem columnsMeet_eq (a0 a1 b0 b1 : Nat) : columnsMeet a0 a1 b0 b1 = decide (a0 ≤ b1 ∧ b0 ≤ a1) := by
  simp [columnsMeet]

/-- A rectangle with the segment's row that shares a column with it (R30). -/
theorem Segment.meets_eq (s : Segment) (g : Rect) :
    s.meets g = decide (g.y0 ≤ s.row ∧ s.row ≤ g.y1 ∧ g.x0 ≤ s.last ∧ s.first ≤ g.x1) := by
  simp [Segment.meets, columnsMeet, Bool.and_assoc]

theorem Segment.touches_eq (s : Segment) (a : Accumulator) : s.touches a = (s.meets a.region || a.gap.any s.meets) := by
  unfold Segment.touches
  rcases a.gap <;> rfl

theorem LaneProgress.breaks_iff (q : LaneProgress) (seg : Segment) :
    q.breaks seg = true ↔ seg.row < q.row ∨ (seg.row = q.row ∧ seg.first < q.column) := by
  simp [LaneProgress.breaks]

/-! ### Admission (R60 to R64) -/

/-- The lanes that share a column with the region or the gap of a joint (R61). -/
theorem Header.waitSet_eq (h : Header) (j : Joint) : h.waitSet j = (List.range h.lanes.length).filter fun k =>
    decide ((h.lane k).first ≤ j.region.x1 ∧ j.region.x0 ≤ (h.lane k).last)
      || j.gap.any fun g => decide ((h.lane k).first ≤ g.x1 ∧ g.x0 ≤ (h.lane k).last) := by
  simp only [Header.waitSet, columnsMeet_eq]
  refine List.filter_congr fun k _ => ?_
  rcases j.gap <;> rfl

/-- Either way the pointer moves past the joint (R63). -/
@[simp] theorem Block.admitOne_pointer (b : Block) (p : Program) (j : Joint) :
    (b.admitOne p j).joints.pointer = b.joints.pointer + 1 := by
  simp only [Block.admitOne]
  split <;> simp

theorem Block.admitOne_admits (j : Joint) (room : b.joints.records.length < 512) : b.admitOne p j =
    { b with joints := ⟨b.joints.records ++ [p.header.newRecord b.joints.pointer j], b.joints.pointer + 1⟩ } :=
  if_pos room

/-- A joint refused gets OPEN_SET_FULL (R64, R89). -/
theorem Block.admitOne_refuses {j : Joint} (hj : p.joints[b.joints.pointer]? = some j)
    (full : 512 ≤ b.joints.records.length) : b.admitOne p j =
      ({ b with joints := { b.joints with pointer := b.joints.pointer + 1 } } : Block).giveResult
        (j.absentResult b.tracker.number b.joints.pointer .openSetFull) := by
  refine (if_neg (Nat.not_lt.2 full)).trans ?_
  rw [Block.judgeAbsent, Program.absentResult_eq hj]

/-- Admission stops at the table's end. -/
theorem Block.admitRow_end (row : Nat) (h : p.joints.drop b.joints.pointer = []) : b.admitRow p row = b := by
  simp only [Block.admitRow, h, Block.admitJoints]

/-- Admission stops at a joint that begins below the row (R63). -/
theorem Block.admitRow_stops {row : Nat} {j : Joint} {rest : List Joint}
    (h : p.joints.drop b.joints.pointer = j :: rest) (below : row < j.region.y0) : b.admitRow p row = b := by
  simp only [Block.admitRow, h, Block.admitJoints, if_neg (Nat.not_le.2 below)]

/-- A joint that the row has reached is passed, and admission goes on behind it (R63). -/
theorem Block.admitRow_passes {row : Nat} {j : Joint} {rest : List Joint}
    (h : p.joints.drop b.joints.pointer = j :: rest) (reaches : j.region.y0 ≤ row) :
    b.admitRow p row = (b.admitOne p j).admitRow p row := by
  have behind : p.joints.drop (b.joints.pointer + 1) = rest := by rw [← List.drop_drop, h]; rfl
  simp only [Block.admitRow, h, Block.admitJoints, if_pos reaches, Block.admitOne_pointer, behind]

/-- The pointer passes the joints from it on that the row has reached (R63). -/
theorem Block.admitRow_pointer (b : Block) (p : Program) (row : Nat) : (b.admitRow p row).joints.pointer =
    b.joints.pointer
      + ((p.joints.drop b.joints.pointer).takeWhile fun j => decide (j.region.y0 ≤ row)).length := by
  unfold Block.admitRow
  induction p.joints.drop b.joints.pointer generalizing b with
  | nil => rfl
  | cons j rest ih =>
    unfold Block.admitJoints
    split
    · next reaches =>
      rw [ih, Block.admitOne_pointer, List.takeWhile_cons_of_pos (by simpa using reaches), List.length_cons]
      omega
    · next below => rw [List.takeWhile_cons_of_neg (by simpa using below)]; rfl

/-! ### Watermark notices (R70, R72, R73) -/

/-- The current gap row of a record whose gap lies in a lane is among those that the lane has finished (R70). -/
def Accumulator.gapRowDone (l : Lane) (watermark : Int) (a : Accumulator) : Prop :=
  ∃ g part y, a.gap = some g ∧ a.gapPart = some part ∧ part.row = some y
    ∧ l.first ≤ g.x0 ∧ g.x0 ≤ l.last ∧ (y : Int) ≤ watermark

/-- A notice closes the gap row that is done, and no other (R70, R71). -/
theorem Accumulator.noticeGap_of_done {l : Lane} {watermark : Int} {a c : Accumulator}
    (h : (a.gapRowDone l watermark ∧ c = a.closeGapRow) ∨ (¬ a.gapRowDone l watermark ∧ c = a)) :
    a.noticeGap l watermark = c := by
  rcases h with ⟨⟨g, part, y, hg, hpart, hrow, first, last, done⟩, rfl⟩ | ⟨unfinished, rfl⟩
  · have inside : a.gapInLane l = true := by simp [Accumulator.gapInLane, hg, Lane.holds, first, last]
    simp only [Accumulator.noticeGap, hpart, hrow, inside, done, and_self, if_true]
  · unfold Accumulator.noticeGap
    split
    · next part hpart =>
      split
      · next y hrow =>
        refine if_neg ?_
        rintro ⟨inside, done⟩
        unfold Accumulator.gapInLane at inside
        split at inside
        · next g hg =>
          simp only [Lane.holds, Bool.and_eq_true, decide_eq_true_eq] at inside
          exact unfinished ⟨g, part, y, hg, hpart, hrow, inside.1, inside.2, done⟩
        · cases inside
      · rfl
    · rfl

/-- The records after a notice has closed the gap rows that are done. -/
theorem noticed_records {l : Lane} {watermark : Int} {records closed : List Accumulator}
    (h : List.Forall₂ (fun a c => (a.gapRowDone l watermark ∧ c = a.closeGapRow)
      ∨ (¬ a.gapRowDone l watermark ∧ c = a)) records closed) :
    records.map (Accumulator.noticeGap l watermark) = closed := by
  induction h with
  | nil => rfl
  | cons hc _ ih => rw [List.map_cons, Accumulator.noticeGap_of_done hc, ih]

theorem watermarkOf_of_lane {progress : List LaneProgress} {k : Nat} {q : LaneProgress} (h : progress[k]? = some q) :
    watermarkOf progress k = q.watermark := by
  simp only [watermarkOf, h]

/-- A notice, with the records as its gap rows leave them (R72, R73). -/
theorem Block.notice_eq {k : Nat} {q : LaneProgress} {closed : List Accumulator}
    (hq : b.tracker.progress[k]? = some q)
    (h : b.joints.records.map (Accumulator.noticeGap (p.header.lane k) q.watermark) = closed) :
    let leaves := fun a : Accumulator => a.waitSet.contains k && a.complete b.tracker.progress
    b.notice p k = (closed.filter leaves).foldl (fun c a => c.judgeRecord p .completed a.closeGapRow)
      { b with joints := { b.joints with records := closed.filter fun a => !leaves a } } := by
  subst h
  simp only [Block.notice, watermarkOf_of_lane hq]

@[simp] theorem Block.notice_pointer (b : Block) (p : Program) (k : Nat) :
    (b.notice p k).joints.pointer = b.joints.pointer := by
  have kept := fun c l => (Block.judgeEach_frame c p (fun _ => .completed) l).2.2.2.2.2.2.2.1
  simp only [Block.notice, kept]

end Sys2Proof.Machine
end

section
/-! SUPPORT. The steps of R33 for one segment, and SEGMENT as a whole (R30 to R33, R37; O11). -/

namespace Sys2Proof.Machine

variable {b : Block} {p : Program} {burst : Burst} {seg : Segment}

/-! ### The steps -/

/-- The records that a segment touches are changed, by a test that says the same as R30. -/
theorem markOrder_eq {touches : Accumulator → Bool} (h : ∀ a, seg.touches a = touches a) :
    (fun a : Accumulator => a.markOrder seg) = fun a => if touches a then { a with order := true } else a := by
  funext a
  rw [Accumulator.markOrder, h]

/-- Step 5: the counts, or the DAMAGED marks of a burst with a parity error (R34, R56). -/
theorem Block.classifySegment_eq {touches : Accumulator → Bool} (h : ∀ a, seg.touches a = touches a) (b : Block) :
    b.classifySegment p burst seg = { b with joints :=
      { b.joints with
        records := b.joints.records.map fun a =>
          if burst.damaged then (if touches a then { a with damaged := true } else a)
          else a.accumulate (p.recipe a.recipe) seg } } := by
  unfold Block.classifySegment
  split
  · simp only [Block.mapRecords, Accumulator.markDamaged, h]
  · rfl

@[simp] theorem Block.enterRow_pointer (b : Block) (p : Program) (k : Nat) (q : LaneProgress) (seg : Segment) :
    (b.enterRow p k q seg).joints.pointer = b.joints.pointer
      + ((p.joints.drop b.joints.pointer).takeWhile fun j => decide (j.region.y0 ≤ seg.row)).length := by
  unfold Block.enterRow
  split <;> simp [Block.admitRow_pointer]

@[simp] theorem Block.classifySegment_pointer (b : Block) (p : Program) (burst : Burst) (seg : Segment) :
    (b.classifySegment p burst seg).joints.pointer = b.joints.pointer := by
  unfold Block.classifySegment
  split <;> rfl

@[simp] theorem Block.leaveSegment_pointer (b : Block) (p : Program) (k : Nat) (q : LaneProgress) (seg : Segment) :
    (b.leaveSegment p k q seg).joints.pointer = b.joints.pointer := by
  simp only [Block.leaveSegment]
  split <;> simp

/-- A row advance moves the lane's record, and nothing else of the frame (R31). -/
theorem Block.enterRow_progress (b : Block) (p : Program) (k : Nat) (q : LaneProgress) (seg : Segment) :
    ∃ progress, (b.enterRow p k q seg).tracker = { b.tracker with progress := progress }
      ∧ ∀ x, progress.set k x = b.tracker.progress.set k x := by
  unfold Block.enterRow
  split
  · exact ⟨_, by simp; rfl, fun x => by simp⟩
  · exact ⟨b.tracker.progress, by simp, fun x => rfl⟩

/-- The frame, closed NORMAL when the test says so (R37, R40). -/
def FrameTracker.closesNormal (k : FrameTracker) (test : Prop) [Decidable test] : FrameTracker :=
  if test then { k with state := .closing, closeKind := some .normal } else k

/-- A close leaves the progress of the lanes. -/
theorem FrameTracker.closesNormal_progress (k : FrameTracker) (test : Prop) [Decidable test]
    (progress : List LaneProgress) : ({ k with progress := progress } : FrameTracker).closesNormal test =
      { k.closesNormal test with progress := progress } := by
  unfold FrameTracker.closesNormal
  split <;> rfl

/-- The NORMAL close is taken when every lane's watermark is height - 1 and the frame is OPEN (R37, R40). -/
theorem Block.normalTest_tracker (b : Block) (p : Program) : (b.normalTest p).tracker =
    b.tracker.closesNormal (b.tracker.state = .opened
      ∧ ∀ x ∈ b.tracker.progress, x.watermark = (p.header.height : Int) - 1) := by
  have test : b.allLanesDone p = true ↔ ∀ x ∈ b.tracker.progress, x.watermark = (p.header.height : Int) - 1 := by
    simp [Block.allLanesDone]
  unfold Block.normalTest FrameTracker.closesNormal
  by_cases ho : b.tracker.state = .opened
  · simp only [test, ho, true_and]
    split
    · rw [Block.closeFrame_opened ho]
    · rfl
  · simp only [ho, false_and, if_false]
    split
    · rw [Block.closeFrame_other ho]
    · rfl

/-- Steps 6 and 7: the lane's record moves, and at the end of its row the NORMAL close may be taken (R32, R37). -/
theorem Block.leaveSegment_tracker (b : Block) (p : Program) (k : Nat) (q : LaneProgress) (seg : Segment) :
    (b.leaveSegment p k q seg).tracker =
      { b.tracker.closesNormal (b.tracker.state = .opened ∧ seg.last = (p.header.lane k).last
          ∧ ∀ x ∈ b.tracker.progress.set k (q.accept (p.header.lane k) seg),
            x.watermark = (p.header.height : Int) - 1) with
        progress := b.tracker.progress.set k (q.accept (p.header.lane k) seg) } := by
  simp only [Block.leaveSegment]
  by_cases hl : seg.last = (p.header.lane k).last
  · rw [if_pos hl, Block.normalTest_tracker]
    simp only [Block.notice_frame, Block.setProgress, hl, true_and, FrameTracker.closesNormal_progress]
  · rw [if_neg hl, FrameTracker.closesNormal, if_neg fun h => hl h.2.1]
    rfl

/-! ### One segment -/

/-- The report of C_LANE_RANGE changes the log alone (R28, R127). -/
@[simp] theorem Block.reportLaneRange_tracker (b : Block) (burst : Burst) :
    (b.reportLaneRange burst).tracker = b.tracker := by
  unfold Block.reportLaneRange
  split
  · rw [Block.report_minor _ (.inl rfl)]; simp
  · rfl

@[simp] theorem Block.orderBreak_tracker (b : Block) (burst : Burst) (seg : Segment) :
    (b.orderBreak burst seg).tracker = b.tracker := by
  rw [Block.orderBreak, Block.report_minor _ (.inr rfl)]; simp

theorem Block.handleSegment_breaks {q : LaneProgress} (hq : b.tracker.progress[burst.lane]? = some q)
    (h : q.breaks seg = true) : b.handleSegment p burst seg = b.orderBreak burst seg := by
  simp only [Block.handleSegment, hq, h, if_true]

theorem Block.handleSegment_accepts {q : LaneProgress} (hq : b.tracker.progress[burst.lane]? = some q)
    (h : ¬ q.breaks seg = true) : b.handleSegment p burst seg =
      ((b.enterRow p burst.lane q seg).classifySegment p burst seg).leaveSegment p burst.lane
        (if q.row < seg.row then .advance (p.header.lane burst.lane) seg.row else q) seg := by
  simp only [Block.handleSegment, hq, if_neg h]

/-- What an accepted segment moves of the admission pointer and of the frame (R31, R32, R37, R63). -/
theorem Block.handleSegment_moves {q : LaneProgress} (hq : b.tracker.progress[burst.lane]? = some q)
    (h : ¬ q.breaks seg = true) {moved : LaneProgress} (hm : moved = LaneProgress.accept
      (if q.row < seg.row then .advance (p.header.lane burst.lane) seg.row else q) (p.header.lane burst.lane) seg) :
    (b.handleSegment p burst seg).joints.pointer = b.joints.pointer
        + ((p.joints.drop b.joints.pointer).takeWhile fun j => decide (j.region.y0 ≤ seg.row)).length
      ∧ (b.handleSegment p burst seg).tracker =
        { b.tracker.closesNormal (b.tracker.state = .opened ∧ seg.last = (p.header.lane burst.lane).last
            ∧ ∀ x ∈ b.tracker.progress.set burst.lane moved, x.watermark = (p.header.height : Int) - 1) with
          progress := b.tracker.progress.set burst.lane moved } := by
  subst hm
  obtain ⟨progress, entered, set⟩ := b.enterRow_progress p burst.lane q seg
  rw [Block.handleSegment_accepts hq h, Block.leaveSegment_tracker]
  refine ⟨by simp, ?_⟩
  simp only [Block.classifySegment_frame, entered, set, FrameTracker.closesNormal_progress]

/-- The segments left, none when the list is empty (R33). -/
theorem Block.setSegments_eq (b : Block) (burst : Burst) (rest : List Segment) : b.setSegments burst rest =
    { b with tracker :=
      { b.tracker with
        burst := if rest = [] then none else some { burst with outOfLane := false, segments := rest } } } := by
  cases rest <;> simp [Block.setSegments]

/-! ### SEGMENT -/

/-- SEGMENT with no reset pending (R33). -/
theorem execSegment_works {s : State} (hb : s.block.tracker.burst = some burst)
    (hp : s.block.store.activeProgram = some p) (hd : s.block.decoder.resetPending = false) :
    exec .segment s = .next (s.withBlock (s.block.segmentWork burst p)) := by
  show Host.Outcome.next (s.withBlock s.block.segment) = _
  rw [Block.segment_eq _ hb hp, Block.resetAfterSegment, Block.segmentWork_decoder, hd]
  rfl

/-- SEGMENT handles the front segment of the burst (R33). -/
theorem execSegment_handles {s : State} {rest : List Segment} (hb : s.block.tracker.burst = some burst)
    (hs : burst.segments = seg :: rest) (hp : s.block.store.activeProgram = some p)
    (hd : s.block.decoder.resetPending = false) :
    exec .segment s = .next (s.withBlock
      (((s.block.reportLaneRange burst).handleSegment p burst seg).setSegments burst rest)) := by
  rw [execSegment_works hb hp hd, Block.segmentWork, hs]

/-- Settles O11. -/
theorem segmentIsCountedOrReported : Obligations.SegmentIsCountedOrReported := by
  unfold Obligations.SegmentIsCountedOrReported
  refine ⟨fun s p burst seg rest q hb hs hp hq hd => ?_, fun s => ⟨fun hb => ?_, fun burst hb hs hp hd => ?_⟩,
    fun b p row => ⟨fun h => Block.admitRow_end row h, fun j rest h => ⟨fun below => Block.admitRow_stops h below,
      fun reaches room => ?_, fun reaches full => ?_⟩⟩, fun b p k q hq => ?_⟩
  · intro b left lane touches breaks entered moved
    have reported : (s.block.reportLaneRange burst).tracker = s.block.tracker := by simp
    have hq' : (s.block.reportLaneRange burst).tracker.progress[burst.lane]? = some q := by rw [reported]; exact hq
    have touch : ∀ a, seg.touches a = touches a := fun a => by
      simp only [Segment.touches_eq, funext (Segment.meets_eq seg), touches]
    have work := execSegment_handles hb hs hp hd
    rw [Block.setSegments_eq] at work
    refine ⟨fun hbr => ?_, fun hbr => ?_, fun hbr => ?_⟩
    · have broken := Block.handleSegment_breaks (p := p) hq' ((q.breaks_iff seg).2 hbr)
      rw [work, broken, Block.orderBreak_tracker, reported, Block.orderBreak, markOrder_eq touch]
      rfl
    · have accepted := Block.handleSegment_accepts (p := p) hq' (mt (q.breaks_iff seg).1 hbr)
      intro row admitted noticed counts counted done ended
      have enters : (s.block.reportLaneRange burst).enterRow p burst.lane q seg = noticed := by
        unfold Block.enterRow
        by_cases hr : q.row < seg.row
        · simp only [noticed, admitted, row, entered, if_pos hr]
          rfl
        · simp only [noticed, admitted, row, if_neg hr]
          rfl
      rw [work, accepted, enters, Block.classifySegment_eq touch]
      rfl
    · obtain ⟨pointer, tracker⟩ :=
        Block.handleSegment_moves (p := p) hq' (mt (q.breaks_iff seg).1 hbr) (moved := moved) rfl
      refine ⟨_, work, ?_, ?_⟩
      · simpa using pointer
      · simp only [tracker, reported]
        rfl
  · show Host.Outcome.next (s.withBlock s.block.segment) = _
    simp only [Block.segment, hb]
    rfl
  · obtain ⟨p, hp⟩ := Option.ne_none_iff_exists'.1 hp
    rw [execSegment_works hb hp hd, Block.segmentWork, hs]
    show Host.Outcome.next (s.withBlock ((s.block.reportLaneRange burst).setSegments burst [])) = _
    rw [Block.setSegments_eq, Block.reportLaneRange_tracker]
    rfl
  · rw [Block.admitRow_passes h reaches, Block.admitOne_admits j room, Header.newRecord, Header.waitSet_eq]
    rfl
  · have hj : p.joints[b.joints.pointer]? = some j := by
      have := congrArg (·[0]?) h
      simpa using this
    rw [Block.admitRow_passes h reaches, Block.admitOne_refuses hj full]
    rfl
  · intro inLane reachedBy leaves closed hc
    have complete : ∀ a : Accumulator, a.waitSet.all (reachedBy a) = a.complete b.tracker.progress := by
      intro a
      unfold Accumulator.complete
      congr 1
      funext l
      simp only [reachedBy, watermarkOf]
      rcases Option.eq_none_or_eq_some (b.tracker.progress[l]?) with hx | ⟨x, hx⟩
      · simp only [hx]
      · simp only [hx]
    simp only [leaves, complete]
    exact Block.notice_eq hq (noticed_records hc)

end Sys2Proof.Machine
end

section
/-! SUPPORT. The pixel word, the tests of the classes, and what one segment adds to the counts and to the gap part of a
record (R45 to R53, R66, R69 to R71, R199; O12). -/

namespace Sys2Proof.Machine

/-! ### The pixel word (R45, R47, R199) -/

theorem Pixel.low_eq (p : Pixel) : p.low = p.word.toNat % 1024 := by
  simp [Pixel.low]

theorem Pixel.mid_eq (p : Pixel) : p.mid = p.word.toNat / 1024 % 1024 := by
  simp [Pixel.mid, Nat.shiftRight_eq_div_pow]

theorem Pixel.top_eq (p : Pixel) : p.top = p.word.toNat / 1048576 % 1024 := by
  simp [Pixel.top, Nat.shiftRight_eq_div_pow]

/-- The mark is the highest field, so that nothing stands above it in the word (R199). -/
theorem Pixel.mark_eq (p : Pixel) : p.mark = p.word.toNat / 1073741824 := by
  have bound := p.word.isLt
  have field : p.mark = p.word.toNat / 1073741824 % 4 := by simp [Pixel.mark, Nat.shiftRight_eq_div_pow]
  omega

theorem Pixel.valid_iff (p : Pixel) : p.valid = true ↔ (p.mark = 0 ∨ p.mark = 1) ∧ p.strobes = 15 := by
  have marks : p.mark < 2 ↔ p.mark = 0 ∨ p.mark = 1 := by omega
  have strobes : BitVec.allOnes 4 = 15 := rfl
  simp [Pixel.valid, marks, strobes]

/-- A pixel is invalid by its mark or by a byte not written (R47). -/
theorem Pixel.not_valid_eq (p : Pixel) :
    (!p.valid) = (decide (2 ≤ p.mark) || p.strobes != BitVec.allOnes 4) := by
  simp only [Pixel.valid, Bool.not_and, bne, ← decide_not, Nat.not_lt]

/-! ### Classes (R50, R51, R53) -/

theorem Pixel.solderLike_eq (p : Pixel) (r : Recipe) :
    p.solderLike r = (p.valid && decide (r.darkSum ≤ p.sum)) := by
  simp only [Pixel.solderLike, Pixel.dark, ← decide_not, Nat.not_lt]

/-- Top light dominates (R51). -/
def Pixel.topLeads (p : Pixel) (r : Recipe) : Bool :=
  decide (p.mid + r.margin ≤ p.top ∧ p.low + r.margin ≤ p.top)

/-- Mid light dominates (R51). -/
def Pixel.midLeads (p : Pixel) (r : Recipe) : Bool :=
  decide (p.top + r.margin ≤ p.mid ∧ p.low + r.margin ≤ p.mid)

/-- Low light dominates (R51). -/
def Pixel.lowLeads (p : Pixel) (r : Recipe) : Bool :=
  decide (p.top + r.margin ≤ p.low ∧ p.mid + r.margin ≤ p.low)

/-- The tests that put a pixel into a class: valid, the darkness test, then each dominance test after those before it
have failed (R50, R51). -/
def Pixel.passes (p : Pixel) (r : Recipe) : PixelClass → Bool
  | .dark => p.valid && decide (p.sum < r.darkSum)
  | .flat => (p.valid && decide (r.darkSum ≤ p.sum)) && p.topLeads r
  | .slope => (p.valid && decide (r.darkSum ≤ p.sum)) && !p.topLeads r && p.midLeads r
  | .steep => (p.valid && decide (r.darkSum ≤ p.sum)) && !p.topLeads r && !p.midLeads r && p.lowLeads r
  | .mixed => (p.valid && decide (r.darkSum ≤ p.sum)) && !p.topLeads r && !p.midLeads r && !p.lowLeads r

/-- The class of a valid pixel is the one whose tests it passes. -/
theorem Pixel.valid_and_classify (p : Pixel) (r : Recipe) (k : PixelClass) :
    (p.valid && decide (p.classify r = k)) = p.passes r k := by
  have bright : decide (r.darkSum ≤ p.sum) = !p.dark r := by
    simp only [Pixel.dark, ← decide_not, Nat.not_lt]
  have darkness : decide (p.sum < r.darkSum) = p.dark r := rfl
  have tests : p.classify r = if p.dark r then .dark else if p.topLeads r then .flat
      else if p.midLeads r then .slope else if p.lowLeads r then .steep else .mixed := by
    simp only [Pixel.classify, Pixel.topLeads, Pixel.midLeads, Pixel.lowLeads, decide_eq_true_eq]
  rw [tests]
  split_ifs with dark top mid low
  · cases k <;> simp [Pixel.passes, bright, darkness, dark]
  · cases k <;> simp [Pixel.passes, bright, darkness, dark, top]
  · cases k <;> simp [Pixel.passes, bright, darkness, dark, top, mid]
  · cases k <;> simp [Pixel.passes, bright, darkness, dark, top, mid, low]
  · cases k <;> simp [Pixel.passes, bright, darkness, dark, top, mid, low]

/-! ### Counts (R47 to R51, R66) -/

/-- The count of a class. -/
def Counts.ofClass (c : Counts) : PixelClass → Nat
  | .dark => c.dark
  | .flat => c.flat
  | .slope => c.slope
  | .steep => c.steep
  | .mixed => c.mixed

theorem Counts.addClass_ofClass (c : Counts) (k k' : PixelClass) :
    (c.addClass k).ofClass k' = c.ofClass k' + if k = k' then 1 else 0 := by
  cases k <;> cases k' <;> rfl

theorem Counts.addClass_counted (c : Counts) (k : PixelClass) : (c.addClass k).counted = c.counted + 1 := by
  cases k <;> simp only [Counts.addClass, Counts.counted, Counts.valid] <;> omega

theorem Counts.addClass_invalid (c : Counts) (k : PixelClass) : (c.addClass k).invalid = c.invalid := by
  cases k <;> rfl

section
variable {r : Recipe} {p : Pixel}

theorem Counts.addPixel_of_valid (c : Counts) (h : p.valid = true) : c.addPixel r p =
    { c.addClass (p.classify r) with sat := if p.mark = 1 then c.sat + 1 else c.sat, sumS := c.sumS + p.sum } := by
  rw [Counts.addPixel, if_pos h]

theorem Counts.addPixel_of_invalid (c : Counts) (h : p.valid = false) :
    c.addPixel r p = { c with invalid := c.invalid + 1 } := by
  rw [Counts.addPixel, h]
  rfl

/-- A pixel adds 1 to the class whose tests it passes. -/
theorem Counts.addPixel_ofClass (k : PixelClass) (c : Counts) (p : Pixel) :
    (c.addPixel r p).ofClass k = c.ofClass k + if p.passes r k then 1 else 0 := by
  rw [← Pixel.valid_and_classify]
  cases h : p.valid with
  | true =>
    have same : (c.addPixel r p).ofClass k = (c.addClass (p.classify r)).ofClass k := by
      rw [Counts.addPixel_of_valid c h]
      cases k <;> rfl
    simp only [same, Counts.addClass_ofClass, Bool.true_and, decide_eq_true_eq]
  | false =>
    rw [Counts.addPixel_of_invalid c h]
    cases k <;> rfl

theorem Counts.addPixel_invalid (c : Counts) (p : Pixel) :
    (c.addPixel r p).invalid = c.invalid + if !p.valid then 1 else 0 := by
  cases h : p.valid with
  | true => rw [Counts.addPixel_of_valid c h]; exact c.addClass_invalid _
  | false => rw [Counts.addPixel_of_invalid c h]; rfl

theorem Counts.addPixel_counted (c : Counts) (p : Pixel) :
    (c.addPixel r p).counted = c.counted + if true then 1 else 0 := by
  cases h : p.valid with
  | true => rw [Counts.addPixel_of_valid c h]; exact c.addClass_counted _
  | false => rw [Counts.addPixel_of_invalid c h]; rfl

theorem Counts.addPixel_sat (c : Counts) (p : Pixel) :
    (c.addPixel r p).sat = c.sat + if p.valid && decide (p.mark = 1) then 1 else 0 := by
  cases h : p.valid with
  | true =>
    rw [Counts.addPixel_of_valid c h]
    by_cases overexposed : p.mark = 1 <;> simp [overexposed]
  | false => rw [Counts.addPixel_of_invalid c h]; rfl

theorem Counts.addPixel_sumS (c : Counts) (p : Pixel) :
    (c.addPixel r p).sumS = c.sumS + if p.valid then p.sum else 0 := by
  cases h : p.valid with
  | true => rw [Counts.addPixel_of_valid c h]; rfl
  | false => rw [Counts.addPixel_of_invalid c h]; rfl

end

/-- A count that each pixel of a test raises by its weight, and no other pixel, rises by the weights of a list's
pixels of that test. -/
theorem Counts.foldl_addPixel_sum {r : Recipe} {f : Counts → Nat} {test : Pixel → Bool} {weight : Pixel → Nat}
    (h : ∀ c p, f (c.addPixel r p) = f c + if test p then weight p else 0) (l : List Pixel) (c : Counts) :
    f (l.foldl (Counts.addPixel r) c) = f c + ((l.filter test).map weight).sum := by
  induction l generalizing c with
  | nil => rfl
  | cons p rest ih =>
    rw [List.foldl_cons, ih, h, Nat.add_assoc, List.filter_cons]
    split <;> simp

/-- A count that each pixel of a test raises by 1 rises by the number of a list's pixels of that test. -/
theorem Counts.foldl_addPixel_countP {r : Recipe} {f : Counts → Nat} {test : Pixel → Bool}
    (h : ∀ c p, f (c.addPixel r p) = f c + if test p then 1 else 0) (l : List Pixel) (c : Counts) :
    f (l.foldl (Counts.addPixel r) c) = f c + l.countP test := by
  rw [Counts.foldl_addPixel_sum (weight := fun _ => 1) h, List.countP_eq_length_filter]
  simp

/-! ### Overlaps (R46) -/

/-- An overlap is picked from a segment's pixels by one test on the row and the column. -/
theorem Segment.overlap_eq (seg : Segment) (rect : Rect) : seg.overlap rect = seg.pixels.filter fun x =>
    decide (rect.y0 ≤ seg.row ∧ seg.row ≤ rect.y1 ∧ rect.x0 ≤ x.column ∧ x.column ≤ rect.x1) := by
  unfold Segment.overlap
  split
  · next rows => simp only [rows.1, rows.2, true_and, Bool.decide_and]
  · next outside =>
    refine (List.filter_eq_nil_iff.2 fun x _ => ?_).symm
    simp only [decide_eq_true_eq]
    exact fun ⟨above, below, _⟩ => outside ⟨above, below⟩

/-! ### Gap rows (R69 to R71) -/

section
variable {part : GapPart} {gap : Rect} {row count : Nat}

/-- Without a current gap row, the row handed becomes it (R69). -/
theorem GapPart.add_of_none (h : part.row = none) : part.add gap row count = ⟨some row, count, part.bridged⟩ := by
  simp only [GapPart.add, h]

/-- More of the current gap row is added to its count (R69). -/
theorem GapPart.add_of_same (h : part.row = some row) :
    part.add gap row count = ⟨some row, part.count + count, part.bridged⟩ := by
  simp only [GapPart.add, h, if_true]

/-- A row other than the current gap row closes it and takes its place (R69, R71). -/
theorem GapPart.add_of_other {y : Nat} (h : part.row = some y) (other : y ≠ row) :
    part.add gap row count = ⟨some row, count, (part.close gap).bridged⟩ := by
  simp only [GapPart.add, h, if_neg other]

end

section
variable {a : Accumulator} {gap : Rect} {part : GapPart}

theorem Accumulator.closeGapRow_of_none (hg : a.gap = some gap) (hp : a.gapPart = some part) (h : part.row = none) :
    a.closeGapRow = a := by
  simp only [Accumulator.closeGapRow, hg, hp, h, Option.isSome_none, Bool.false_eq_true, if_false]

theorem Accumulator.closeGapRow_of_some (hg : a.gap = some gap) (hp : a.gapPart = some part) (h : part.row ≠ none) :
    a.closeGapRow = { a with gapPart := some (part.close gap) } := by
  simp only [Accumulator.closeGapRow, hg, hp, if_pos (Option.isSome_iff_ne_none.2 h)]

/-! ### What a segment adds to a record (R46, R66, R69) -/

variable {r : Recipe} {seg : Segment}

/-- A segment changes the counts, which its region overlap decides, and the gap part of a record, and no more. -/
theorem Accumulator.accumulate_frame (a : Accumulator) (r : Recipe) (seg : Segment) : a.accumulate r seg =
    { a with
      counts := (seg.overlap a.region).foldl (Counts.addPixel r) a.counts
      gapPart := (a.accumulate r seg).gapPart } := by
  simp only [Accumulator.accumulate]
  split <;> rfl

theorem Accumulator.accumulate_counts (a : Accumulator) (r : Recipe) (seg : Segment) :
    (a.accumulate r seg).counts = (seg.overlap a.region).foldl (Counts.addPixel r) a.counts := by
  rw [Accumulator.accumulate_frame]

theorem Accumulator.accumulate_gapPart_of_no_gap (hg : a.gap = none) :
    (a.accumulate r seg).gapPart = a.gapPart := by
  simp only [Accumulator.accumulate, hg]

theorem Accumulator.accumulate_gapPart_of_empty (hg : a.gap = some gap) (h : seg.overlap gap = []) :
    (a.accumulate r seg).gapPart = a.gapPart := by
  simp only [Accumulator.accumulate, hg, Segment.gapOverlap, h]
  split
  · next nonempty => cases nonempty
  · rfl

/-- A gap overlap that is not empty hands the number of its solder-like pixels to the gap part. -/
theorem Accumulator.accumulate_gapPart_of_overlap (hg : a.gap = some gap) (hp : a.gapPart = some part)
    (h : seg.overlap gap ≠ []) : (a.accumulate r seg).gapPart =
      some (part.add gap seg.row ((seg.overlap gap).countP (·.solderLike r))) := by
  obtain ⟨x, rest, h⟩ := List.exists_cons_of_ne_nil h
  simp only [Accumulator.accumulate, hg, hp, Segment.gapOverlap, h]

end

/-- A count that each region pixel of a test raises by 1 rises by their number in the segment's overlap (R66). -/
theorem Accumulator.accumulate_countP {r : Recipe} {f : Counts → Nat} {test : Pixel → Bool}
    (h : ∀ c p, f (c.addPixel r p) = f c + if test p then 1 else 0) (a : Accumulator) (seg : Segment) :
    f (a.accumulate r seg).counts = f a.counts + (seg.overlap a.region).countP test := by
  rw [Accumulator.accumulate_counts, Counts.foldl_addPixel_countP h]

/-- Settles O12. -/
theorem segmentCountsEachPixelOnce : Obligations.SegmentCountsEachPixelOnce := by
  unfold Obligations.SegmentCountsEachPixelOnce
  simp only [← Segment.overlap_eq, ← Pixel.not_valid_eq, ← Pixel.solderLike_eq]
  refine ⟨fun a r seg => ?_, fun a r seg => ⟨Accumulator.accumulate_gapPart_of_no_gap, fun gap part hg hp => ?_⟩,
    fun a gap part hg hp => ⟨Accumulator.closeGapRow_of_none hg hp, Accumulator.closeGapRow_of_some hg hp⟩,
    fun x => ⟨x.low_eq, x.mid_eq, x.top_eq, x.mark_eq, rfl, x.valid_iff⟩⟩
  · have classes : ∀ k, (a.accumulate r seg).counts.ofClass k =
        a.counts.ofClass k + (seg.overlap a.region).countP fun x => x.passes r k := fun k =>
      Accumulator.accumulate_countP (f := fun c => c.ofClass k) (Counts.addPixel_ofClass k) a seg
    simp only [Pixel.passes, ← Pixel.solderLike_eq] at classes
    refine ⟨?_, Accumulator.accumulate_countP Counts.addPixel_invalid a seg, classes .dark, classes .flat,
      classes .slope, classes .steep, classes .mixed, Accumulator.accumulate_countP Counts.addPixel_sat a seg, ?_, ?_⟩
    · simpa using Accumulator.accumulate_countP (r := r) (test := fun _ => true) Counts.addPixel_counted a seg
    · rw [Accumulator.accumulate_counts]
      exact Counts.foldl_addPixel_sum Counts.addPixel_sumS _ _
    · rw [Accumulator.accumulate_counts]
      exact Accumulator.accumulate_frame a r seg
  · refine ⟨fun empty => (Accumulator.accumulate_gapPart_of_empty hg empty).trans hp, fun overlap => ?_⟩
    rw [Accumulator.accumulate_gapPart_of_overlap hg hp overlap]
    exact ⟨fun first => congrArg some (GapPart.add_of_none first),
      fun same => congrArg some (GapPart.add_of_same same),
      fun y before earlier => congrArg some (GapPart.add_of_other before earlier.ne)⟩

end Sys2Proof.Machine
end

section
/-! SUPPORT. The sizes of the buffers, queues, counters and settings, part by part of the block, and what the ports, the
internal master, the record writer and the error logs do to them (O51). -/

namespace Sys2Proof.Machine

/-! ### The sizes, part by part -/

/-- The writes and the reads of a port have places (R148). -/
structure Port.InSize (p : Port) : Prop where
  writes : p.buffer.length ≤ 8
  reads : p.readsHeld ≤ 16

/-- The requests in the internal master's queue have places (R157). -/
def InternalMaster.InSize (m : InternalMaster) : Prop := m.queue.length ≤ 8

/-- The records of the open joint set have places (R64). -/
def JointSet.InSize (j : JointSet) : Prop := j.records.length ≤ 512

/-- A valid configuration is within the ranges of its settings (R98). -/
def LineConfig.InRange (c : LineConfig) : Prop :=
  c.valid = true → (1 ≤ c.diverter ∧ c.diverter ≤ 2 ^ 30) ∧ (1 ≤ c.window ∧ c.window ≤ 2 ^ 20)
    ∧ c.deadTime ≤ 65535 ∧ c.timeout ≤ 2 ^ 30

/-- The boards, the counts and the settings of the line are within theirs (R97, R98, R101, R104). -/
def Line.InSize (l : Line) : Prop :=
  l.queue.length ≤ 8 ∧ l.runCount ≤ 3 ∧ l.untracked ≤ 65535 ∧ l.config.InRange

/-- The output queue and the drop counter are within theirs (R167, R170). -/
def RecordWriter.InSize (w : RecordWriter) : Prop := w.queue.length ≤ 32 ∧ w.drops ≤ 4294967295

/-- The memory response limit is within its range (R140). -/
def MemoryPort.InRange (m : MemoryPort) : Prop := 1 ≤ m.responseLimit ∧ m.responseLimit ≤ 65535

theorem Block.countsBounded_iff (b : Block) : b.CountsBounded ↔
    b.capture.InSize ∧ b.system.InSize ∧ b.master.InSize ∧ b.joints.InSize ∧ b.line.InSize ∧ b.writer.InSize
      ∧ b.memory.InRange := by
  constructor
  · intro h
    exact ⟨⟨h.writes .capture, h.reads .capture⟩, ⟨h.writes .system, h.reads .system⟩, h.internal, h.records,
      ⟨h.boards, h.run, h.untracked, h.settings⟩, ⟨h.output, h.drops⟩, h.limit⟩
  · rintro ⟨capture, system, master, joints, ⟨boards, run, untracked, settings⟩, ⟨output, drops⟩, limit⟩
    exact ⟨fun | .capture => capture.writes | .system => system.writes,
      fun | .capture => capture.reads | .system => system.reads, master, joints, boards, output, run, untracked,
      drops, limit, settings⟩

/-- Each part that was within its sizes still is. -/
structure Block.KeepsSizes (b t : Block) : Prop where
  capture : b.capture.InSize → t.capture.InSize
  system : b.system.InSize → t.system.InSize
  master : b.master.InSize → t.master.InSize
  joints : b.joints.InSize → t.joints.InSize
  line : b.line.InSize → t.line.InSize
  writer : b.writer.InSize → t.writer.InSize
  memory : b.memory.InRange → t.memory.InRange

theorem Block.KeepsSizes.countsBounded {b t : Block} (hk : b.KeepsSizes t) (h : b.CountsBounded) :
    t.CountsBounded := by
  rw [Block.countsBounded_iff] at h ⊢
  obtain ⟨capture, system, master, joints, line, writer, memory⟩ := h
  exact ⟨hk.capture capture, hk.system system, hk.master master, hk.joints joints, hk.line line, hk.writer writer,
    hk.memory memory⟩

theorem Block.KeepsSizes.refl (b : Block) : b.KeepsSizes b := ⟨id, id, id, id, id, id, id⟩

theorem Block.KeepsSizes.trans {b c t : Block} (h : b.KeepsSizes c) (h' : c.KeepsSizes t) : b.KeepsSizes t where
  capture := h'.capture ∘ h.capture
  system := h'.system ∘ h.system
  master := h'.master ∘ h.master
  joints := h'.joints ∘ h.joints
  line := h'.line ∘ h.line
  writer := h'.writer ∘ h.writer
  memory := h'.memory ∘ h.memory

theorem Block.KeepsSizes.after {b c t : Block} (h' : c.KeepsSizes t) (h : b.KeepsSizes c) : b.KeepsSizes t :=
  h.trans h'

/-! ### Changes of one part -/

/-- The parts of a block that have sizes. -/
def Block.sized (b : Block) : Port × Port × InternalMaster × JointSet × Line × RecordWriter × MemoryPort :=
  (b.capture, b.system, b.master, b.joints, b.line, b.writer, b.memory)

section

variable {b t : Block}

theorem Block.sized_eq_iff : t.sized = b.sized ↔ t.capture = b.capture ∧ t.system = b.system ∧ t.master = b.master
    ∧ t.joints = b.joints ∧ t.line = b.line ∧ t.writer = b.writer ∧ t.memory = b.memory := by
  simp only [Block.sized, Prod.mk.injEq]

theorem Block.KeepsSizes.of_same (h : t.sized = b.sized) : b.KeepsSizes t := by
  obtain ⟨capture, system, master, joints, line, writer, memory⟩ := Block.sized_eq_iff.1 h
  constructor <;> simp only [*, imp_self]

theorem Block.KeepsSizes.of_master (hm : b.master.InSize → t.master.InSize)
    (h : { t with master := b.master }.sized = b.sized) : b.KeepsSizes t :=
  { Block.KeepsSizes.of_same h with master := hm }

theorem Block.KeepsSizes.of_joints (hj : b.joints.InSize → t.joints.InSize)
    (h : { t with joints := b.joints }.sized = b.sized) : b.KeepsSizes t :=
  { Block.KeepsSizes.of_same h with joints := hj }

theorem Block.KeepsSizes.of_line (hl : b.line.InSize → t.line.InSize)
    (h : { t with line := b.line }.sized = b.sized) : b.KeepsSizes t :=
  { Block.KeepsSizes.of_same h with line := hl }

theorem Block.KeepsSizes.of_writer (hw : b.writer.InSize → t.writer.InSize)
    (h : { t with writer := b.writer }.sized = b.sized) : b.KeepsSizes t :=
  { Block.KeepsSizes.of_same h with writer := hw }

theorem Block.KeepsSizes.of_memory (hm : b.memory.InRange → t.memory.InRange)
    (h : { t with memory := b.memory }.sized = b.sized) : b.KeepsSizes t :=
  { Block.KeepsSizes.of_same h with memory := hm }

theorem Block.keepsSizes_setPort (b : Block) (i : PortId) {p : Port} (hp : (b.port i).InSize → p.InSize) :
    b.KeepsSizes (b.setPort i p) := by
  cases i
  · exact ⟨hp, id, id, id, id, id, id⟩
  · exact ⟨id, hp, id, id, id, id, id⟩

end

/-! ### Changes on a condition, and one after another -/

/-- A change that is made on a condition alone. -/
theorem Block.KeepsSizes.when {b t : Block} (h : b.KeepsSizes t) {p : Prop} [Decidable p] :
    b.KeepsSizes (if p then t else b) := by
  split
  · exact h
  · exact .refl b

theorem Block.KeepsSizes.foldl {α : Type} {f : Block → α → Block}
    (h : ∀ (b : Block) a, b.KeepsSizes (f b a)) (l : List α) (b : Block) :
    b.KeepsSizes (l.foldl f b) := by
  induction l generalizing b with
  | nil => exact .refl b
  | cons a l ih => exact (h b a).trans (ih _)

/-! ### One port (R148, R149) -/

theorem releaseAnswers_sublist (master : MasterId) (dir : Direction) (l : List OpenRequest) :
    (releaseAnswers master dir l).1.Sublist l := by
  induction l with
  | nil => exact .slnil
  | cons r l ih =>
    unfold releaseAnswers
    split_ifs
    · split
      · exact ih.cons r
      · exact .refl _
    · exact ih.cons_cons r

/-- Deciding an answer takes up no place (R148, R149). -/
theorem Port.answer_readsHeld (p : Port) (stamp : Nat) (resp : Response) (data : List Beat) :
    (p.answer stamp resp data).readsHeld ≤ p.readsHeld := by
  unfold Port.answer
  split
  · exact le_rfl
  · simp only [Port.readsHeld, ← List.countP_eq_length_filter]
    refine ((releaseAnswers_sublist _ _ _).countP_le).trans_eq ?_
    rw [List.countP_map]
    congr 1
    funext q
    simp only [Function.comp]
    split <;> rfl

/-- A request that holds no place leaves the reads held as they were (R148). -/
theorem Port.openRequest_readsHeld (p : Port) (stamp : Nat) (r : Request) (dir : Direction) :
    (p.openRequest stamp r dir false).readsHeld = p.readsHeld := by
  simp [Port.readsHeld, Port.openRequest]

/-- A read taken holds one place more (R148). -/
theorem Port.openRead_readsHeld (p : Port) (stamp : Nat) (r : Request) :
    (p.openRequest stamp r .read true).readsHeld = p.readsHeld + 1 := by
  simp [Port.readsHeld, Port.openRequest]

theorem Port.readsHeld_congr {p q : Port} (h : q.unanswered = p.unanswered) : q.readsHeld = p.readsHeld := by
  simp only [Port.readsHeld, h]

namespace Port.InSize

variable {p : Port}

/-- A buffer that grows no longer keeps to its places. -/
theorem of_buffer (h : p.InSize) {q : Port} (hb : q.buffer.length ≤ p.buffer.length)
    (hu : q.unanswered = p.unanswered) : q.InSize :=
  ⟨hb.trans h.writes, (Port.readsHeld_congr hu).trans_le h.reads⟩

theorem answer (h : p.InSize) (stamp : Nat) (resp : Response) (data : List Beat) :
    (p.answer stamp resp data).InSize :=
  ⟨by simpa using h.writes, (p.answer_readsHeld stamp resp data).trans h.reads⟩

theorem openRequest (h : p.InSize) (stamp : Nat) (r : Request) (dir : Direction) :
    (p.openRequest stamp r dir false).InSize := ⟨h.writes, (p.openRequest_readsHeld stamp r dir).trans_le h.reads⟩

theorem settleHead (h : p.InSize) (i : PortId) : (p.settleHead i).InSize := by
  refine h.of_buffer (le_of_eq ?_) (by simp)
  cases i
  · rfl
  · rw [Port.settleHead_system]
    cases p.buffer <;> rfl

theorem setWrite (h : p.InSize) (w : BufferedWrite) : (p.setWrite w).InSize :=
  h.of_buffer (by simp [Port.setWrite]) rfl

theorem discardWrite (h : p.InSize) (i : PortId) (stamp : Nat) : (p.discardWrite i stamp).InSize := by
  have removed : ({ p with buffer := p.buffer.filter fun v => v.stamp != stamp } : Port).InSize :=
    h.of_buffer (List.length_filter_le _ _) rfl
  exact (removed.answer stamp .okay []).settleHead i

theorem failedBeat (h : p.InSize) (w : FailedWrite) : (p.failedBeat w).InSize := by
  have unchanged : ∀ failing, ({ p with failing } : Port).InSize := fun _ => h.of_buffer le_rfl rfl
  unfold Port.failedBeat
  split
  · exact (unchanged _).answer _ _ _
  · exact unchanged _

/-- Containment only discards writes and answers requests (R134). -/
theorem contain (h : p.InSize) : p.contain.InSize := by
  have kept : ({ p with
      buffer := (p.buffer.filter BufferedWrite.staysOnContainment).map fun w =>
        if w.state = .taking then { w with doomed := true } else w
      containment := .contained } : Port).InSize :=
    h.of_buffer (by simpa using List.length_filter_le _ _) rfl
  have discarded := List.foldlRecOn (motive := Port.InSize)
    (p.buffer.filter fun w => !w.staysOnContainment) (fun p w => p.answer w.stamp .okay []) kept
    fun _ hq w _ => hq.answer w.stamp .okay []
  exact List.foldlRecOn (motive := Port.InSize) _ Port.failRead (discarded.of_buffer le_rfl rfl)
    fun _ hq r _ => hq.answer _ _ _

end Port.InSize

variable (b : Block)

/-! ### The internal master (R157) -/

theorem Block.keepsSizes_enqueue {w : InternalWork} (room : b.masterHasRoom = true) : b.KeepsSizes (b.enqueue w) := by
  have room : b.master.queue.length < 8 := of_decide_eq_true room
  exact .of_master (fun _ => by simpa [InternalMaster.InSize, Block.enqueue] using room) rfl

theorem Block.keepsSizes_wait (w : Waiter) : b.KeepsSizes (b.wait w) := .of_master id rfl

theorem Block.room_of_mayHandOver {b : Block} (h : b.mayHandOver = true) : b.masterHasRoom = true := by
  simp only [Block.mayHandOver, Bool.and_eq_true] at h
  exact h.1

theorem Block.keepsSizes_askRewrite : b.KeepsSizes b.askRewrite := by
  rcases b.askRewrite_cases with ⟨h, -⟩ | ⟨h, hands⟩ | ⟨h, -⟩ <;> rw [h]
  · exact .refl b
  · exact b.keepsSizes_enqueue (Block.room_of_mayHandOver hands)
  · exact b.keepsSizes_wait _

theorem Block.keepsSizes_writeProducerWord : b.KeepsSizes b.writeProducerWord := by
  unfold Block.writeProducerWord
  simp only
  split_ifs with _ _ hands
  · exact .of_master (by simp [InternalMaster.InSize]) rfl
  · exact .of_master id rfl
  · exact b.keepsSizes_enqueue (Block.room_of_mayHandOver hands)
  · exact b.keepsSizes_wait _

/-! ### The record writer (R169, R170) -/

namespace RecordWriter.InSize

variable {w : RecordWriter}

theorem drop (h : w.InSize) : w.drop.InSize := ⟨h.1, min_le_left _ _⟩

theorem tail (h : w.InSize) : ({ w with queue := w.queue.tail } : RecordWriter).InSize :=
  ⟨(List.tail_sublist _).length_le.trans h.1, h.2⟩

theorem offer (h : w.InSize) (r : RingRecord) : (w.offer r).InSize := by
  unfold RecordWriter.offer
  split
  · next room => exact ⟨by simpa [Config.outputPlaces] using room, h.2⟩
  · exact h.drop

end RecordWriter.InSize

theorem Block.keepsSizes_offerBoard (r : BoardResult) : b.KeepsSizes (b.offerBoard r) :=
  .of_writer (fun h => h.offer _) rfl

theorem Block.keepsSizes_offerNotice (r : NoticeResult) : b.KeepsSizes (b.offerNotice r) :=
  .of_writer (fun h => h.offer _) rfl

theorem Block.keepsSizes_offerJoint (r : JointResult) : b.KeepsSizes (b.offerJoint r) := by
  unfold Block.offerJoint
  split_ifs with _ room
  · exact .refl b
  · have room : b.writer.queue.length < 24 := room
    exact .of_writer (fun h => ⟨by simp only [List.length_append, List.length_singleton]; omega, h.2⟩) rfl
  · exact .of_writer RecordWriter.InSize.drop rfl

/-! ### Reports and what follows them (R125 to R127, R134, R144) -/

theorem Block.keepsSizes_setLog (s : LogSource) (x : ErrorLog) :
    b.KeepsSizes { b with logs := b.logs.setLog s x } := .of_same rfl

theorem Block.keepsSizes_logError (e : LoggedError) : b.KeepsSizes (b.logError e) := by
  have logged := b.keepsSizes_setLog e.code.source
  unfold Block.logError
  simp only
  split
  · exact ((logged _).trans (Block.keepsSizes_offerNotice _ _)).trans (Block.keepsSizes_askRewrite _)
  · exact ((logged _).trans (Block.keepsSizes_offerNotice _ _)).trans (Block.keepsSizes_askRewrite _)
  · exact (logged _).trans (Block.keepsSizes_askRewrite _)
  · exact .refl b

/-- The line after a change of its gate driver, gate mode or late note (R112 to R122). -/
theorem Block.keepsSizes_gate {l : Line} (hq : l.queue = b.line.queue) (hr : l.runCount = b.line.runCount)
    (hu : l.untracked = b.line.untracked) (hc : l.config = b.line.config) : b.KeepsSizes { b with line := l } :=
  .of_line (by simp [Line.InSize, hq, hr, hu, hc]) rfl

theorem Block.keepsSizes_triggerHold : b.KeepsSizes b.triggerHold := by
  unfold Block.triggerHold
  split
  · exact .refl b
  · exact (b.keepsSizes_gate (by simp) (by simp) (by simp) (by simp)).trans (Block.keepsSizes_askRewrite _)

theorem Block.keepsSizes_closeFrame (kind : CloseKind) : b.KeepsSizes (b.closeFrame kind) := by
  unfold Block.closeFrame
  split
  · exact .after (Block.keepsSizes_askRewrite _) (.of_same rfl)
  · exact .refl b

theorem Block.keepsSizes_containPort (i : PortId) : b.KeepsSizes (b.containPort i) := by
  have contained := b.keepsSizes_setPort i Port.InSize.contain
  unfold Block.containPort
  split
  · exact .refl b
  · refine .after (Block.keepsSizes_askRewrite _) ?_
    cases i
    · exact (contained.trans (Block.keepsSizes_closeFrame _ .truncated)).trans (Block.keepsSizes_triggerHold _).when
    · exact contained

theorem Block.keepsSizes_followReport (e : LoggedError) : b.KeepsSizes (b.followReport e) := by
  unfold Block.followReport
  split
  · exact b.keepsSizes_containPort .capture
  · exact b.keepsSizes_containPort .system
  · exact (b.keepsSizes_containPort .capture).when
  · exact (b.keepsSizes_containPort .system).when
  · exact b.keepsSizes_triggerHold
  · exact b.keepsSizes_triggerHold.when
  · exact b.keepsSizes_triggerHold.when
  · exact .refl b

theorem Block.keepsSizes_report (e : LoggedError) : b.KeepsSizes (b.report e) :=
  (b.keepsSizes_logError e).trans (Block.keepsSizes_followReport _ e)

end Sys2Proof.Machine
end

section
/-! SUPPORT. The sizes over the commands of the ports, the frame tracker and the line (O51). -/

namespace Sys2Proof.Machine

variable (b : Block)

/-! ### Requests and beats at a port (R129, R136, R146, R148) -/

theorem Block.keepsSizes_nextStamp : b.KeepsSizes b.nextStamp := .of_same rfl

theorem Block.keepsSizes_writeRequest (i : PortId) (r : Request) : b.KeepsSizes (b.writeRequest i r) := by
  have put : ∀ {p : Port}, ((b.port i).InSize → p.InSize) → b.KeepsSizes (b.setPort i p).nextStamp :=
    fun hp => (b.keepsSizes_setPort i hp).trans (Block.keepsSizes_nextStamp _)
  unfold Block.writeRequest
  split_ifs with room
  · have room : (b.port i).buffer.length < 8 := room
    exact put fun h => ⟨by simpa using room, (h.openRequest b.stamp r .write).reads⟩
  · refine .after (Block.keepsSizes_report _ _) (put fun h => ?_)
    exact (h.openRequest b.stamp r .write).of_buffer le_rfl rfl
  · exact .refl b

theorem Block.keepsSizes_readRequest (i : PortId) (r : Request) : b.KeepsSizes (b.readRequest i r) := by
  have put : ∀ {p : Port}, ((b.port i).InSize → p.InSize) → b.KeepsSizes (b.setPort i p).nextStamp :=
    fun hp => (b.keepsSizes_setPort i hp).trans (Block.keepsSizes_nextStamp _)
  unfold Block.readRequest
  split_ifs with room
  · have room : (b.port i).readsHeld < 16 := room
    have opened : (b.port i).InSize → ((b.port i).openRequest b.stamp r .read true).InSize :=
      fun h => ⟨h.writes, (Port.openRead_readsHeld _ _ r).trans_le room⟩
    unfold Block.takeRead
    simp only
    split
    · exact put fun h => (opened h).of_buffer le_rfl rfl
    · exact put fun h => (opened h).answer _ _ _
  · refine .after (Block.keepsSizes_report _ _) (put fun h => ?_)
    exact (h.openRequest b.stamp r .read).answer _ _ _
  · exact .refl b

theorem Block.keepsSizes_writeBeat (i : PortId) (x : WriteBeat) : b.KeepsSizes (b.writeBeat i x) := by
  unfold Block.writeBeat
  split
  · exact .refl b
  · split
    · exact .refl b
    · exact b.keepsSizes_setPort i fun h => h.failedBeat _
    · unfold Block.bufferedBeat
      simp only
      split
      · exact b.keepsSizes_setPort i fun h => h.setWrite _
      · refine .trans (b.keepsSizes_setPort i fun h => ?_) (Block.keepsSizes_report _ _).when
        split
        · exact h.discardWrite i _
        · exact (h.setWrite _).settleHead i

/-! ### Joints (R33, R63, R64, R72, R80) -/

theorem Block.keepsSizes_giveResult (r : JointResult) : b.KeepsSizes (b.giveResult r) :=
  .after (Block.keepsSizes_offerJoint _ r) (.of_same rfl)

theorem Block.keepsSizes_judgeRecord (p : Program) (kind : HandOver) (a : Accumulator) :
    b.KeepsSizes (b.judgeRecord p kind a) := b.keepsSizes_giveResult _

theorem Block.keepsSizes_judgeAbsent (p : Program) (cause : Cause) (n : Nat) :
    b.KeepsSizes (b.judgeAbsent p cause n) := b.keepsSizes_giveResult _

theorem Block.keepsSizes_admitOne (p : Program) (j : Joint) : b.KeepsSizes (b.admitOne p j) := by
  unfold Block.admitOne
  simp only
  split
  · next room =>
    have room : b.joints.records.length < 512 := room
    exact .of_joints (fun _ => by simpa [JointSet.InSize] using room) rfl
  · exact .after (Block.keepsSizes_judgeAbsent _ p _ _) (.of_joints id rfl)

theorem Block.keepsSizes_admitRow (p : Program) (row : Nat) : b.KeepsSizes (b.admitRow p row) := by
  unfold Block.admitRow
  induction p.joints.drop b.joints.pointer generalizing b with
  | nil => exact .refl b
  | cons j rest ih =>
    unfold Block.admitJoints
    split
    · exact (b.keepsSizes_admitOne p j).trans (ih _)
    · exact .refl b

theorem Block.keepsSizes_mapRecords (f : Accumulator → Accumulator) : b.KeepsSizes (b.mapRecords f) :=
  .of_joints (by simp [JointSet.InSize, Block.mapRecords]) rfl

theorem Block.keepsSizes_notice (p : Program) (k : Nat) : b.KeepsSizes (b.notice p k) := by
  refine .after (.foldl (fun c (a : Accumulator) => c.keepsSizes_judgeRecord p .completed a.closeGapRow) _ _) ?_
  exact .of_joints (fun h => (List.length_filter_le _ _).trans ((List.length_map _).trans_le h)) rfl

theorem Block.keepsSizes_setProgress (k : Nat) (q : LaneProgress) : b.KeepsSizes (b.setProgress k q) := .of_same rfl

theorem Block.keepsSizes_handleSegment (p : Program) (u : Burst) (g : Segment) :
    b.KeepsSizes (b.handleSegment p u g) := by
  have enter : ∀ q, b.KeepsSizes (b.enterRow p u.lane q g) := fun q => by
    unfold Block.enterRow
    split
    · exact ((b.keepsSizes_setProgress _ _).trans (Block.keepsSizes_admitRow _ p _)).trans
        (Block.keepsSizes_notice _ p _)
    · exact b.keepsSizes_admitRow p _
  have classify : ∀ c : Block, c.KeepsSizes (c.classifySegment p u g) := fun c => by
    unfold Block.classifySegment
    split <;> exact c.keepsSizes_mapRecords _
  have leave : ∀ (c : Block) q, c.KeepsSizes (c.leaveSegment p u.lane q g) := fun c q => by
    unfold Block.leaveSegment
    refine (c.keepsSizes_setProgress _ _).trans (.when ?_)
    exact .after (Block.keepsSizes_closeFrame _ .normal).when (Block.keepsSizes_notice _ p _)
  unfold Block.handleSegment
  split
  · exact .refl b
  · split
    · exact (b.keepsSizes_mapRecords _).trans (Block.keepsSizes_report _ _)
    · exact ((enter _).trans (classify _)).trans (leave _ _)

/-! ### The inspection reset (R44, R122) -/

theorem Block.keepsSizes_endLoad (x : LoadOutcome) (n : Nat) : b.KeepsSizes (b.endLoad x n) := by
  unfold Block.endLoad
  split
  · exact .refl b
  · exact .after (Block.keepsSizes_askRewrite _) (.of_master id rfl)

theorem Line.InSize.inspectionReset {l : Line} (h : l.InSize) : l.inspectionReset.InSize := by
  obtain ⟨-, run, untracked, settings⟩ := h
  unfold Line.inspectionReset
  simp only
  split <;> simp [Line.InSize, run, untracked, settings]

theorem Block.keepsSizes_takeInspectionReset : b.KeepsSizes b.takeInspectionReset := by
  refine (b.keepsSizes_endLoad .aborted 0).trans (.after (Block.keepsSizes_askRewrite _) ?_)
  exact ⟨id, id, id, fun _ => Nat.zero_le _, Line.InSize.inspectionReset, id, id⟩

/-! ### The frame tracker (R23, R33, R35, R41) -/

theorem bindBoard_length (frame : FrameNumber) (queue : List Board) :
    (bindBoard frame queue).1.length = queue.length := by
  simpa using congrArg List.length (bindBoard_marks frame queue)

theorem Block.keepsSizes_openFrame (p : Program) : b.KeepsSizes (b.openFrame p) := by
  rw [Block.openFrame_eq]
  refine b.keepsSizes_askRewrite.trans ?_
  exact ⟨id, id, id, by simp [JointSet.InSize], by simp [Line.InSize, bindBoard_length], id, id⟩

theorem Block.keepsSizes_burstOffer : b.KeepsSizes b.burstOffer := by
  unfold Block.burstOffer
  split
  · next w rest _ hb =>
    have head : ∀ state inspected, b.KeepsSizes (b.setCaptureHead w rest state inspected) := fun state inspected =>
      b.keepsSizes_setPort .capture fun h => h.of_buffer (by simp [hb]) rfl
    split
    · split
      · exact head _ _
      · exact head _ _
      · exact (head .ready true).trans (.of_same rfl)
      · next p _ _ => exact ((head .ready true).trans (Block.keepsSizes_openFrame _ p)).trans (.of_same rfl)
    · exact .refl b
  · exact .refl b

theorem Block.keepsSizes_segment : b.KeepsSizes b.segment := by
  have done : ∀ (c : Block) u rest, c.KeepsSizes (c.setSegments u rest).resetAfterSegment := fun c u rest =>
    .after (Block.keepsSizes_takeInspectionReset (c.setSegments u rest)).when (.of_same rfl)
  unfold Block.segment
  split
  · next u p _ _ =>
    have reported : b.KeepsSizes (b.reportLaneRange u) := (b.keepsSizes_report _).when
    simp only
    split
    · exact reported.trans (done _ u _)
    · next g rest _ => exact (reported.trans (Block.keepsSizes_handleSegment _ p u g)).trans (done _ u rest)
  · exact .refl b

theorem Block.keepsSizes_closeVerdicts : b.KeepsSizes b.closeVerdicts := by
  unfold Block.closeVerdicts
  split
  · next p _ =>
    have all : b.KeepsSizes (b.handOverAll p) := by
      refine .after (.foldl (fun c (a : Accumulator) => c.keepsSizes_judgeRecord p _ a.closeGapRow) _ _) ?_
      exact .of_joints (fun _ => Nat.zero_le _) rfl
    refine all.trans (.after (.foldl (fun c n => c.keepsSizes_judgeAbsent p .notReached n) _ _) ?_)
    exact .of_joints id rfl
  · exact .refl b

theorem Block.keepsSizes_finishBoard : b.KeepsSizes b.finishBoard := by
  unfold Block.finishBoard
  split
  · exact b.keepsSizes_offerBoard _
  · simp only
    split
    · refine .after (Block.keepsSizes_offerBoard _ _) ?_
      exact .of_line (by simp [Line.InSize]) rfl
    · exact .after (Block.keepsSizes_offerBoard _ _) (b.keepsSizes_gate rfl rfl rfl rfl)

theorem Block.keepsSizes_closingWork : b.KeepsSizes b.closingWork := by
  have idle : ∀ c : Block, c.KeepsSizes c.returnToIdle := fun c =>
    .after (Block.keepsSizes_askRewrite _) (.of_same rfl)
  unfold Block.closingWork
  split
  · exact ((b.keepsSizes_closeVerdicts.trans (Block.keepsSizes_finishBoard _)).trans (idle _)).trans
      (Block.keepsSizes_takeInspectionReset _).when
  · exact .refl b

/-! ### Samples of the line (R97, R99, R101 to R104, R109, R116) -/

theorem Block.keepsSizes_dueAction (x : Board) : b.KeepsSizes (b.dueAction x) := by
  have taken : ∀ kind, b.KeepsSizes { b with line := (b.line.gateAction kind x).1 } :=
    fun kind => b.keepsSizes_gate (by simp) (by simp) (by simp) (by simp)
  unfold Block.dueAction
  split
  · exact taken _
  · exact (b.keepsSizes_gate (by simp) (by simp) (by simp) (by simp)).trans (Block.keepsSizes_report _ _)
  · exact (taken _).trans (Block.keepsSizes_offerBoard _ _)

theorem Block.keepsSizes_boardLeaves {x : Board} {rest : List Board} (hq : b.line.queue = x :: rest) :
    b.KeepsSizes { b with line := { b.line with queue := rest } } :=
  .of_line (fun ⟨boards, others⟩ => ⟨(Nat.le_succ _).trans (by simpa [hq] using boards), others⟩) rfl

theorem Block.keepsSizes_dueBoards (n : Nat) : b.KeepsSizes (Block.dueBoards n b) := by
  induction n generalizing b with
  | zero => exact .refl b
  | succ n ih =>
    unfold Block.dueBoards
    split
    · exact .refl b
    · next x rest hq =>
      split
      · have acted := b.keepsSizes_dueAction x
        have queue : (b.dueAction x).line.queue = x :: rest := (b.keepsBoards_dueAction x).line.1.trans hq
        exact ((acted.trans (Block.keepsSizes_boardLeaves _ queue)).trans (Block.keepsSizes_askRewrite _)).trans (ih _)
      · exact .refl b

theorem Block.keepsSizes_positionChanged : b.KeepsSizes b.positionChanged := by
  have ended : b.KeepsSizes { b with line := b.line.windowEnd } :=
    b.keepsSizes_gate (by simp) (by simp) (by simp) (by simp)
  refine (ended.trans (Block.keepsSizes_dueBoards _ _)).trans (.when ?_)
  exact (Block.keepsSizes_report _ _).trans (Block.keepsSizes_closeFrame _ .timeout)

theorem Block.keepsSizes_illegalSample (x : Bool × Bool) : b.KeepsSizes (b.illegalSample x) :=
  .after (Block.keepsSizes_report _ _) (b.keepsSizes_gate rfl rfl rfl rfl)

theorem Block.keepsSizes_illegalStep : b.KeepsSizes b.illegalStep := by
  unfold Block.illegalStep
  split
  · exact b.keepsSizes_illegalSample _
  · exact .refl b

theorem Block.keepsSizes_encoderSample (x : Bool × Bool) : b.KeepsSizes (b.encoderSample x) := by
  unfold Block.encoderSample
  split
  · exact b.keepsSizes_gate rfl rfl rfl rfl
  · split
    · exact .refl b
    · split
      · exact .after (Block.keepsSizes_positionChanged _) (b.keepsSizes_gate rfl rfl rfl rfl)
      · exact b.keepsSizes_illegalSample x

/-- A board enters while the queue has room, and is counted as untracked otherwise (R102 to R104). -/
theorem Block.keepsSizes_leadingEdge : b.KeepsSizes b.leadingEdge := by
  unfold Block.leadingEdge
  simp only
  split_ifs with _ room
  · exact .refl b
  · have room : b.line.queue.length < 8 := room
    refine .after (Block.keepsSizes_askRewrite _) ?_
    exact .of_line (fun ⟨_, others⟩ => ⟨by simpa using room, others⟩) rfl
  · refine .after ((Block.keepsSizes_report _ _).trans (Block.keepsSizes_askRewrite _)) ?_
    exact .of_line (fun ⟨boards, run, _, settings⟩ => ⟨boards, run, min_le_left _ _, settings⟩) rfl

theorem Block.keepsSizes_edgeTo (high : Bool) : b.KeepsSizes (b.edgeTo high) := by
  have settled : b.KeepsSizes (b.settleEdge high) :=
    .of_line (fun ⟨boards, _, others⟩ => ⟨boards, Nat.zero_le _, others⟩) rfl
  unfold Block.edgeTo
  split
  · exact settled.trans (Block.keepsSizes_leadingEdge _)
  · exact settled

theorem Block.keepsSizes_edgeSample (high : Bool) : b.KeepsSizes (b.edgeSample high) := by
  unfold Block.edgeSample
  split_ifs with _ earlier
  · exact .of_line (fun ⟨boards, _, others⟩ => ⟨boards, Nat.zero_le _, others⟩) rfl
  · exact .of_line (fun ⟨boards, _, others⟩ => ⟨boards, Nat.le_of_lt_succ earlier, others⟩) rfl
  · exact b.keepsSizes_edgeTo high

theorem Block.keepsSizes_boardEdgeLeading : b.KeepsSizes b.boardEdgeLeading := by
  unfold Block.boardEdgeLeading
  split
  · exact .refl b
  · exact b.keepsSizes_edgeTo _

theorem Block.keepsSizes_boardEdgeTrailing : b.KeepsSizes b.boardEdgeTrailing :=
  (b.keepsSizes_edgeTo _).when

/-- Time counts down the timers alone (R112, R140). -/
theorem Block.keepsSizes_elapse (n : Nat) : b.KeepsSizes (b.elapse n) := by
  refine ⟨id, id, id, id, ?_, id, id⟩
  simp only [Block.elapse]
  split
  · exact id
  · exact id

theorem Block.keepsSizes_deadTimeEnd : b.KeepsSizes b.deadTimeEnd := by
  unfold Block.deadTimeEnd
  split
  · exact (b.keepsSizes_elapse _).trans (Block.keepsSizes_gate _ (by simp) (by simp) (by simp) (by simp))
  · exact .refl b

end Sys2Proof.Machine
end

section
/-! SUPPORT. The sizes over the commands of the record writer, the memory port and the mailbox, and over every step
(O51). -/

namespace Sys2Proof.Machine

variable (b : Block)

/-! ### The end of a slot write, and the consumer index (R174 to R178) -/

theorem Block.keepsSizes_applyConsumer (u : ConsumerUpdate) : b.KeepsSizes (b.applyConsumer u) := by
  unfold Block.applyConsumer
  split
  · exact .refl b
  · split
    · exact .of_writer id rfl
    · exact .after (Block.keepsSizes_report _ _) (.of_writer id rfl)

theorem Block.keepsSizes_takeConsumer (u : ConsumerUpdate) : b.KeepsSizes (b.takeConsumer u) := by
  unfold Block.takeConsumer
  split
  · exact .refl b
  · exact .of_writer id rfl
  · exact b.keepsSizes_applyConsumer u

theorem Block.keepsSizes_endSlotWrite : b.KeepsSizes b.endSlotWrite := by
  have held : ∀ c : Block, c.KeepsSizes c.applyHeld := fun c => by
    unfold Block.applyHeld
    split
    · exact .after (Block.keepsSizes_applyConsumer _ _) (.of_writer id rfl)
    · exact .refl c
  have ended : b.KeepsSizes { b with writer := { b.writer with slotWrite := none } } := .of_writer id rfl
  exact (ended.trans (held _)).trans (.of_writer id rfl)

theorem Block.keepsSizes_slotDone (n : Nat) : b.KeepsSizes (b.slotDone n) := by
  refine .when (.after (Block.keepsSizes_endSlotWrite _) (.after (Block.keepsSizes_writeProducerWord _) ?_))
  exact .of_writer RecordWriter.InSize.tail rfl

theorem Block.keepsSizes_slotFailed (n : Nat) : b.KeepsSizes (b.slotFailed n) := by
  refine .when (.after (Block.keepsSizes_endSlotWrite _) ?_)
  exact .of_writer (fun h => h.tail.drop) rfl

/-! ### Owners of internal requests (R11, R157, R174) -/

theorem Block.keepsSizes_handFetch (room : b.masterHasRoom = true) (l : Load) : b.KeepsSizes (b.handFetch l) :=
  (b.keepsSizes_enqueue room).trans (.of_same rfl)

theorem Block.keepsSizes_handSlot (room : b.masterHasRoom = true) (ring : Ring) (r : RingRecord) :
    b.KeepsSizes (b.handSlot ring r) :=
  (b.keepsSizes_enqueue room).trans (.of_writer id rfl)

theorem Block.keepsSizes_fetchReadIssue : b.KeepsSizes b.fetchReadIssue := by
  unfold Block.fetchReadIssue
  split
  · exact .refl b
  · split_ifs with _ hands
    · exact .refl b
    · exact b.keepsSizes_handFetch (Block.room_of_mayHandOver hands) _
    · exact b.keepsSizes_wait _

theorem Block.keepsSizes_ringSlotWrite : b.KeepsSizes b.ringSlotWrite := by
  unfold Block.ringSlotWrite
  split
  · exact .refl b
  · split_ifs with _ hands
    · exact .refl b
    · exact b.keepsSizes_handSlot (Block.room_of_mayHandOver hands) _ _
    · exact b.keepsSizes_wait _

theorem Block.keepsSizes_handWaiter (room : b.masterHasRoom = true) (w : Waiter) : b.KeepsSizes (b.handWaiter w) := by
  unfold Block.handWaiter
  split
  · split
    · exact b.keepsSizes_handFetch room _
    · exact .refl b
  · split
    · exact b.keepsSizes_handSlot room _ _
    · exact .refl b
  · exact b.keepsSizes_enqueue room
  · exact b.keepsSizes_enqueue room

/-- Owners hand over only as long as the queue has room (R157). -/
theorem Block.keepsSizes_internalHandover : b.KeepsSizes b.internalHandover := by
  unfold Block.internalHandover
  induction b.master.waiters generalizing b with
  | nil => exact .of_master id rfl
  | cons w rest ih =>
    unfold Block.drainWaiters
    simp only
    split
    · next room => exact .after (ih _) (.after (Block.keepsSizes_handWaiter _ room w) (.of_master id rfl))
    · exact .of_master id rfl

/-! ### Requests at memory (R12, R140, R141, R162) -/

theorem Block.keepsSizes_fetchDone (n : Nat) (data : List Beat) : b.KeepsSizes (b.fetchDone n data) := by
  have validated : ∀ v, b.KeepsSizes (b.takeValidation v) := fun v => by
    cases v with
    | more l => exact .of_same rfl
    | failed outcome index => exact b.keepsSizes_endLoad outcome index
    | passed p =>
      simp only [Block.takeValidation, Block.completeLoad]
      split
      · exact b.keepsSizes_endLoad _ _
      · exact .after (Block.keepsSizes_askRewrite _) (.of_same rfl)
  unfold Block.fetchDone
  split
  · exact validated _
  · exact .refl b

theorem Block.keepsSizes_fetchFailed (n : Nat) : b.KeepsSizes (b.fetchFailed n) := by
  unfold Block.fetchFailed
  split
  · exact b.keepsSizes_endLoad _ _
  · exact .refl b

theorem Block.keepsSizes_ownerDone (o : EntryOwner) (data : List Beat) : b.KeepsSizes (b.ownerDone o data) := by
  unfold Block.ownerDone
  split
  · exact b.keepsSizes_fetchDone _ _
  · exact b.keepsSizes_slotDone _
  · exact .refl b

theorem Block.keepsSizes_ownerFails (o : EntryOwner) : b.KeepsSizes (b.ownerFails o) := by
  unfold Block.ownerFails
  split
  · exact b.keepsSizes_fetchFailed _
  · exact b.keepsSizes_slotFailed _
  · exact .refl b

theorem Block.keepsSizes_answerPort (i : PortId) (n : Nat) (r : Response) (data : List Beat) :
    b.KeepsSizes (b.answerPort i n r data) := b.keepsSizes_setPort i fun h => h.answer n r data

theorem Block.keepsSizes_retire (tag : Nat) : b.KeepsSizes (b.retire tag) := .of_memory id rfl

theorem Block.keepsSizes_memoryResponse (tag : Nat) (r : Response) (data : List Beat) :
    b.KeepsSizes (b.memoryResponse tag r data) := by
  unfold Block.memoryResponse
  split
  · exact .refl b
  · refine (b.keepsSizes_retire tag).trans ?_
    unfold Block.route
    split
    · exact Block.keepsSizes_answerPort _ _ _ _ _
    · exact .after (Block.keepsSizes_report _ _) (Block.keepsSizes_answerPort _ _ _ _ _)
    · exact Block.keepsSizes_ownerDone _ _ _
    · exact .after (Block.keepsSizes_ownerFails _ _) (Block.keepsSizes_report _ _)

theorem Block.keepsSizes_responseTimerExpiry (tag : Nat) : b.KeepsSizes (b.responseTimerExpiry tag) := by
  unfold Block.responseTimerExpiry
  split
  · exact .refl b
  · next e _ =>
    refine .after ?_ ((b.keepsSizes_elapse e.timer).trans (Block.keepsSizes_retire _ tag))
    unfold Block.timeOut
    simp only
    split
    · exact .after (Block.keepsSizes_answerPort _ _ _ _ _) (Block.keepsSizes_report _ _)
    · exact .after (Block.keepsSizes_ownerFails _ _) (Block.keepsSizes_report _ _)

/-! ### The commands of the mailbox (R8, R9, R128, R137, R145, R164, R172, R190, R192) -/

/-- The arguments that SET_LINE takes are within the ranges of the settings (R98, R190). -/
theorem Decoder.lineArguments_inRange {d : Decoder} {c : LineConfig} {g : GateModeArg}
    (h : d.lineArguments = some (c, g)) : c.InRange := by
  simp only [Decoder.lineArguments] at h
  split at h
  · next inRange =>
    obtain ⟨d1, d2, w1, w2, deadTime, timeout, -⟩ := inRange
    split at h
    · obtain ⟨rfl, -⟩ := Prod.mk.inj (Option.some.inj h)
      exact fun _ => ⟨⟨d1, d2⟩, ⟨w1, w2⟩, deadTime, timeout⟩
    · cases h
  · cases h

theorem Block.keepsSizes_setLine : b.KeepsSizes b.setLine.1 := by
  have gate : ∀ (c : Block) g, c.KeepsSizes (c.setGateMode g) := fun c g => by
    unfold Block.setGateMode
    split
    · exact .after (Block.keepsSizes_askRewrite _) (c.keepsSizes_gate (by simp) (by simp) (by simp) (by simp))
    · exact .after (Block.keepsSizes_askRewrite _) (c.keepsSizes_gate rfl rfl rfl rfl)
    · exact .refl c
  unfold Block.setLine
  split
  · exact .refl b
  · next config _ arguments =>
    split_ifs
    · exact .refl b
    · exact .refl b
    · refine .after (gate _ _) ?_
      exact .of_line (fun ⟨boards, run, untracked, _⟩ =>
        ⟨boards, run, untracked, Decoder.lineArguments_inRange arguments⟩) rfl

theorem Block.keepsSizes_setPortPolicy : b.KeepsSizes b.setPortPolicy.1 := by
  have short : b.decoder.argument 8 2 < 65536 := fieldAt_lt _ 8 2
  unfold Block.setPortPolicy
  simp only
  split
  · next i policy fail _ _ _ =>
    have put : b.KeepsSizes (b.setPort i { b.port i with policy := policy, failResponse := fail }) :=
      b.keepsSizes_setPort i fun h => h.of_buffer le_rfl rfl
    split_ifs with unchanged
    · exact put
    · exact put.trans (.of_memory (fun _ => ⟨Nat.one_le_iff_ne_zero.2 unchanged, Nat.le_of_lt_succ short⟩) rfl)
  · exact .refl b

theorem Block.keepsSizes_setRing : b.KeepsSizes b.setRing.1 := by
  unfold Block.setRing
  simp only
  split_ifs
  · exact .refl b
  · exact .refl b
  · exact .of_writer id rfl

theorem Block.keepsSizes_resumePort : b.KeepsSizes b.resumePort.1 := by
  unfold Block.resumePort
  split
  · exact .refl b
  · split
    · exact .refl b
    · split
      · exact .refl b
      · exact .after (Block.keepsSizes_askRewrite _) (b.keepsSizes_setPort _ fun h => h.of_buffer le_rfl rfl)

theorem Block.keepsSizes_loadProgram : b.KeepsSizes b.loadProgram.1 := by
  unfold Block.loadProgram
  simp only
  split
  · exact .refl b
  · split
    · exact .refl b
    · exact .after (Block.keepsSizes_askRewrite _) (.of_same rfl)

theorem Block.keepsSizes_abortLoad : b.KeepsSizes b.abortLoad.1 := by
  unfold Block.abortLoad
  split
  · exact b.keepsSizes_endLoad _ _
  · exact .refl b

theorem Block.keepsSizes_clearLog : b.KeepsSizes b.clearLog.1 := by
  unfold Block.clearLog
  split
  · exact b.keepsSizes_setLog _ _
  · exact .refl b

theorem Block.keepsSizes_releaseGate : b.KeepsSizes b.releaseGate.1 := by
  unfold Block.releaseGate
  split
  · exact .after (Block.keepsSizes_askRewrite _) (b.keepsSizes_gate (by simp) (by simp) (by simp) (by simp))
  · exact .refl b

theorem Block.keepsSizes_inspectionReset (inHand : Bool) : b.KeepsSizes (b.inspectionReset inHand).1 := by
  unfold Block.inspectionReset
  split_ifs
  · exact .refl b
  · exact .of_same rfl
  · exact b.keepsSizes_takeInspectionReset

theorem Block.keepsSizes_decideCommand (kind : Nat) (inHand : Bool) :
    b.KeepsSizes (b.decideCommand kind inHand).1 := by
  unfold Block.decideCommand
  split
  · exact b.keepsSizes_loadProgram
  · exact b.keepsSizes_abortLoad
  · exact b.keepsSizes_setRing
  · exact b.keepsSizes_setLine
  · exact b.keepsSizes_setPortPolicy
  · exact b.keepsSizes_clearLog
  · exact b.keepsSizes_resumePort
  · exact b.keepsSizes_releaseGate
  · exact b.keepsSizes_inspectionReset inHand
  · exact .refl b

/-- What the mailbox decoder makes of a copied write (R185, R188). -/
theorem Block.keepsSizes_decodeCopy (c : MailboxCopy) (inHand : Bool) : b.KeepsSizes (b.decodeCopy c inHand) := by
  have merged : b.KeepsSizes (b.mergeCopy c) := .of_same (by simp [Block.sized])
  have command : ∀ d : Block, d.KeepsSizes (d.takeCommand inHand) := fun d =>
    (d.keepsSizes_decideCommand d.decoder.kind inHand).trans (.after (Block.keepsSizes_askRewrite _) (.of_same rfl))
  exact (merged.trans (Block.keepsSizes_takeConsumer _ _).when).trans (command _).when

/-! ### ARBITER_GRANT (R151, R153, R157, R161, R163) -/

theorem Block.keepsSizes_forwardWrite (i : PortId) (w : BufferedWrite) (tag : Nat) :
    b.KeepsSizes (b.forwardWrite i w tag) := by
  have left : (b.port i).InSize → ({ b.port i with buffer := (b.port i).buffer.tail } : Port).InSize :=
    fun h => h.of_buffer (by simp) rfl
  exact (b.keepsSizes_setPort i fun h => (left h).settleHead i).trans (.of_memory id rfl)

theorem Block.keepsSizes_forwardRead (i : PortId) (r : ListedRead) (tag : Nat) :
    b.KeepsSizes (b.forwardRead i r tag) := by
  have left : b.KeepsSizes (b.setPort i { b.port i with reads := (b.port i).reads.tail }) :=
    b.keepsSizes_setPort i fun h => h.of_buffer le_rfl rfl
  exact left.trans (.of_memory id rfl)

theorem Block.keepsSizes_forwardInternal (r : InternalRequest) (tag : Nat) :
    b.KeepsSizes (b.forwardInternal r tag) := by
  have counted : b.KeepsSizes (b.countStatus r.work) := .of_same (by simp [Block.sized])
  have sent : ∀ c : Block, c.KeepsSizes { c with
      memory := c.memory.send r.owner (c.workRequest r.work tag)
      master := { c.master with queue := c.master.queue.tail } } :=
    fun c => ⟨id, id, fun h => (List.tail_sublist _).length_le.trans h, id, id, id, id⟩
  exact counted.trans (sent _)

theorem Block.keepsSizes_arbiterGrant (pick : Nat) (inHand : Bool) : b.KeepsSizes (b.arbiterGrant pick inHand) := by
  unfold Block.arbiterGrant
  split
  · unfold Block.grant
    split
    · refine (b.keepsSizes_forwardWrite _ _ _).trans (.when ?_)
      split
      · exact Block.keepsSizes_report _ _
      · split
        · exact .refl _
        · exact Block.keepsSizes_decodeCopy _ _ inHand
    · exact b.keepsSizes_forwardRead _ _ _
    · exact b.keepsSizes_forwardInternal _ _
  · exact .refl b

/-! ### Every command -/

/-- A full reset empties every buffer and queue, and the configuration is not valid (R98, R133, R140, R167). -/
theorem Block.keepsSizes_fullReset (kind : FullResetKind) (mbxSel : BitVec 3) (imgContain : Bool) :
    b.KeepsSizes (b.fullReset kind mbxSel imgContain) where
  capture _ := ⟨Nat.zero_le _, Nat.zero_le _⟩
  system _ := ⟨Nat.zero_le _, Nat.zero_le _⟩
  master _ := Nat.one_le_ofNat
  joints _ := Nat.zero_le _
  line _ := ⟨Nat.zero_le _, Nat.zero_le _, Nat.zero_le _, nofun⟩
  writer _ := ⟨Nat.zero_le _, Nat.zero_le _⟩
  memory _ := ⟨(by decide : 1 ≤ 2000), (by decide : 2000 ≤ 65535)⟩

theorem exec_keepsSizes {c : Instr} {s t : State} (h : exec c s = .next t) : s.block.KeepsSizes t.block := by
  have copied : ∀ c inHand, (s.onBlock fun b => b.decodeCopy c inHand) = .next t → s.block.KeepsSizes t.block :=
    fun c inHand hf => onBlock_block hf ▸ s.block.keepsSizes_decodeCopy c inHand
  have command : ∀ {kind fields inHand}, (s.onBlock fun b => b.commandWrite kind fields inHand) = .next t →
      s.block.KeepsSizes t.block := fun hf => copied _ _ hf
  cases c with
  | fullReset kind straps contain => cases h; exact s.block.keepsSizes_fullReset kind straps contain
  | writeRequest i r => cases h; exact s.block.keepsSizes_writeRequest i r
  | readRequest i r => cases h; exact s.block.keepsSizes_readRequest i r
  | writeBeat i x => cases h; exact s.block.keepsSizes_writeBeat i x
  | burstOffer => cases h; exact s.block.keepsSizes_burstOffer
  | segment => cases h; exact s.block.keepsSizes_segment
  | closing => cases h; exact s.block.keepsSizes_closingWork
  | encoderStep x y => cases h; exact s.block.keepsSizes_encoderSample (x, y)
  | illegalStep => cases h; exact s.block.keepsSizes_illegalStep
  | boardEdgeTrailing => cases h; exact s.block.keepsSizes_boardEdgeTrailing
  | boardEdgeLeading => cases h; exact s.block.keepsSizes_boardEdgeLeading
  | boardEdgeSample x => cases h; exact s.block.keepsSizes_edgeSample x
  | deadTimeEnd => cases h; exact s.block.keepsSizes_deadTimeEnd
  | arbiterGrant pick inHand => cases h; exact s.block.keepsSizes_arbiterGrant pick inHand
  | mailboxShadowWrite bytes => exact copied _ _ h
  | memoryResponse tag r data => cases h; exact s.block.keepsSizes_memoryResponse tag r data
  | responseTimerExpiry tag => cases h; exact s.block.keepsSizes_responseTimerExpiry tag
  | fetchReadIssue => cases h; exact s.block.keepsSizes_fetchReadIssue
  | ringSlotWrite => cases h; exact s.block.keepsSizes_ringSlotWrite
  | internalHandover => cases h; exact s.block.keepsSizes_internalHandover
  | consumerUpdate m a bytes => exact copied _ _ h
  | loadProgram a => exact command h
  | abortLoad => exact command h
  | setRing a n i => exact command h
  | setLine a => exact command h
  | setPortPolicy i p f l => exact command h
  | clearLog n => exact command h
  | resumePort n => exact command h
  | releaseGate => exact command h
  | inspectionReset inHand => exact command h
  | unknownKind k => exact command h

/-- Settles O51: each command, and a tick, keeps each part of the block within its sizes. -/
theorem everyStepKeepsCountsBounded : Obligations.EveryStepKeepsCountsBounded := by
  unfold Obligations.EveryStepKeepsCountsBounded
  intro s t hs h
  unfold step at h
  split at h
  · cases h
    exact (s.block.keepsSizes_elapse 1).countsBounded hs
  · next rest _ => exact (exec_keepsSizes (s := { s with pending := rest }) h).countsBounded hs

end Sys2Proof.Machine
end

section
/-! SUPPORT. The stages of the judgement of a record (R84 to R87; O13). -/

namespace Sys2Proof.Machine

section

variable {a : Accumulator} {r : Recipe} {c : Cause} {d : Defects}

/-! ### Stage 1 (R84) -/

theorem Accumulator.judge_forced (a : Accumulator) (r : Recipe) :
    a.judge r .forced = (.unreadable, some .truncated, .noneFound) := rfl

theorem Accumulator.judge_damaged (damaged : a.damaged = true) (r : Recipe) :
    a.judge r .completed = (.unreadable, some .damaged, .noneFound) := by
  simp only [Accumulator.judge, Accumulator.forcedCause, damaged, if_true]

/-- A completed record that is not DAMAGED goes on to Stage 2. -/
theorem Accumulator.forcedCause_eq_none (undamaged : a.damaged = false) : a.forcedCause .completed = none := by
  simp [Accumulator.forcedCause, undamaged]

/-! ### Stage 2 (R85) -/

/-- The readability tests, in their order, on the counts of the record. -/
theorem Accumulator.unreadableCause_eq (a : Accumulator) (r : Recipe) : a.unreadableCause r =
    if a.counts.valid = 0 then some .noValid
    else if 256 * a.counts.valid / a.region.area < r.minValid then some .lowValid
    else if r.satMax < 256 * a.counts.sat / a.counts.valid then some .saturated
    else none := by
  simp only [Accumulator.unreadableCause, Accumulator.measure_eq]

theorem Accumulator.judge_unreadable (undamaged : a.damaged = false) (unreadable : a.unreadableCause r = some c) :
    a.judge r .completed = (.unreadable, some c, .noneFound) := by
  simp only [Accumulator.judge, Accumulator.forcedCause_eq_none undamaged, unreadable]

theorem Accumulator.judge_readable (undamaged : a.damaged = false) (readable : a.unreadableCause r = none) :
    a.judge r .completed = ((a.findDefects r).verdict, none, a.findDefects r) := by
  simp only [Accumulator.judge, Accumulator.forcedCause_eq_none undamaged, readable]

/-! ### Stage 4 (R86) -/

theorem Accumulator.findDefects_bridge (a : Accumulator) (r : Recipe) :
    (a.findDefects r).bridge = true ↔ 1 ≤ r.bridgeRows ∧ ∃ g, a.gapPart = some g ∧ r.bridgeRows ≤ g.bridged := by
  rcases h : a.gapPart <;> simp [Accumulator.findDefects, h]

theorem Accumulator.findDefects_nonwet (a : Accumulator) (r : Recipe) : (a.findDefects r).nonwet = true ↔
    r.darkMax < 256 * a.counts.dark / a.counts.valid ∨ a.counts.sumS / a.counts.valid < r.brightMin := by
  simp only [Accumulator.findDefects, Accumulator.measure_eq, Bool.or_eq_true, decide_eq_true_eq]

theorem Accumulator.findDefects_insufficient (a : Accumulator) (r : Recipe) :
    (a.findDefects r).insufficient = true ↔ 256 * a.counts.slope / a.counts.valid < r.slopeMin := by
  simp only [Accumulator.findDefects, Accumulator.measure_eq, decide_eq_true_eq]

theorem Accumulator.findDefects_excess (a : Accumulator) (r : Recipe) :
    (a.findDefects r).excess = true ↔ r.steepMax < 256 * a.counts.steep / a.counts.valid := by
  simp only [Accumulator.findDefects, Accumulator.measure_eq, decide_eq_true_eq]

/-! ### Stage 5 (R87) -/

theorem Defects.verdict_bridge (bridge : d.bridge = true) : d.verdict = .bridge :=
  if_pos bridge

theorem Defects.verdict_nonwet (noBridge : ¬ d.bridge = true) (nonwet : d.nonwet = true) : d.verdict = .nonwet :=
  (if_neg noBridge).trans (if_pos nonwet)

/-- With neither BRIDGE nor NONWET found, the other two defects decide. -/
theorem Defects.verdict_of_wet (noBridge : ¬ d.bridge = true) (wet : ¬ d.nonwet = true) :
    d.verdict = if d.insufficient then .insufficient else if d.excess then .excess else .ok :=
  (if_neg noBridge).trans (if_neg wet)

theorem Defects.verdict_insufficient (noBridge : ¬ d.bridge = true) (wet : ¬ d.nonwet = true)
    (insufficient : d.insufficient = true) : d.verdict = .insufficient :=
  (Defects.verdict_of_wet noBridge wet).trans (if_pos insufficient)

theorem Defects.verdict_excess (noBridge : ¬ d.bridge = true) (wet : ¬ d.nonwet = true)
    (sufficient : ¬ d.insufficient = true) (excess : d.excess = true) : d.verdict = .excess :=
  (Defects.verdict_of_wet noBridge wet).trans ((if_neg sufficient).trans (if_pos excess))

theorem Defects.verdict_ok (noBridge : ¬ d.bridge = true) (wet : ¬ d.nonwet = true)
    (sufficient : ¬ d.insufficient = true) (noExcess : ¬ d.excess = true) : d.verdict = .ok :=
  (Defects.verdict_of_wet noBridge wet).trans ((if_neg sufficient).trans (if_neg noExcess))

end

/-- Settles O13: each clause is the first stage, and in it the first test, that decides. -/
theorem verdictFollowsTheStages : Obligations.VerdictFollowsTheStages := by
  unfold Obligations.VerdictFollowsTheStages
  intro a r
  refine ⟨a.judge_forced r, fun damaged => a.judge_damaged damaged r, fun undamaged => ?_⟩
  intro v area bridge nonwet insufficient excess
  have stage2 := a.unreadableCause_eq r
  refine ⟨fun noneValid => ?noValid, fun valid low => ?lowValid, fun valid enough saturated => ?saturated,
    fun valid enough unsaturated => ?readable⟩
  case noValid => exact Accumulator.judge_unreadable undamaged (stage2.trans (if_pos noneValid))
  case lowValid =>
    exact Accumulator.judge_unreadable undamaged (stage2.trans ((if_neg valid).trans (if_pos low)))
  case saturated =>
    exact Accumulator.judge_unreadable undamaged
      (stage2.trans ((if_neg valid).trans ((if_neg (Nat.not_lt.2 enough)).trans (if_pos saturated))))
  case readable =>
    have readable : a.unreadableCause r = none := stage2.trans
      ((if_neg valid).trans ((if_neg (Nat.not_lt.2 enough)).trans (if_neg (Nat.not_lt.2 unsaturated))))
    have judged : ∀ {verdict}, (a.findDefects r).verdict = verdict →
        a.judge r .completed = (verdict, none, a.findDefects r) :=
      fun h => h ▸ Accumulator.judge_readable undamaged readable
    have bridged := a.findDefects_bridge r
    have unwetted := a.findDefects_nonwet r
    have lacking := a.findDefects_insufficient r
    have exceeding := a.findDefects_excess r
    exact ⟨a.findDefects r, bridged, unwetted, lacking, exceeding,
      fun hb => judged (Defects.verdict_bridge (bridged.2 hb)),
      fun hb hn => judged (Defects.verdict_nonwet (mt bridged.1 hb) (unwetted.2 hn)),
      fun hb hn hi => judged (Defects.verdict_insufficient (mt bridged.1 hb) (mt unwetted.1 hn) (lacking.2 hi)),
      fun hb hn hi he => judged (Defects.verdict_excess (mt bridged.1 hb) (mt unwetted.1 hn) (mt lacking.1 hi)
        (exceeding.2 he)),
      fun hb hn hi he => judged (Defects.verdict_ok (mt bridged.1 hb) (mt unwetted.1 hn) (mt lacking.1 hi)
        (mt exceeding.1 he))⟩

end Sys2Proof.Machine
end

section
/-! SUPPORT. What each operation of the gate driver makes of the line: its driver, its late note and its gate mode
written out (R111 to R120; O20). -/

namespace Sys2Proof.Machine

theorem reached_iff (position target : Position) : reached position target = true ↔ 0 ≤ (position - target).toInt :=
  decide_eq_true_iff

variable (l : Line)

/-! ### The late note (R111, R112) -/

theorem Line.setNote_eq (owner : Serial) (action : GateAction) :
    l.setNote owner action = { l with lateNote := l.noteChanged owner action } := by
  obtain ⟨_, _, _, _, _, _, _, note, _, _, _⟩ := l
  cases note with
  | none => rfl
  | some n =>
    simp only [Line.setNote, Line.noteChanged, Option.map_some]
    split <;> rfl

/-- The late note after the action of its owner has been cut, if it has an owner (R112). -/
def Line.noteCut (owner : Option Serial) : Option LateNote :=
  match owner with
  | some board => l.noteChanged board .cut
  | none => l.lateNote

theorem Line.cutOwner_eq (owner : Option Serial) : l.cutOwner owner = { l with lateNote := l.noteCut owner } := by
  cases owner with
  | none => rfl
  | some board => exact l.setNote_eq board .cut

/-! ### DEAD (R112, R116) -/

/-- The driver once its line has gone inactive with nothing pending (R112). -/
def Line.stopped (kind : GateLine) : GateDriver :=
  if l.config.deadTime = 0 then .idle else .dead kind l.config.deadTime none

/-- The driver once a line has become active for an action: inactive again if the end has been reached (R113). -/
def Line.driven (kind : GateLine) (endAt : Position) (owner : Serial) : GateDriver :=
  if 0 ≤ (l.position - endAt).toInt then l.stopped kind else .driving kind (some endAt) (some owner)

@[simp] theorem Line.endDead_none : l.endDead none = { l with driver := .idle } := rfl

@[simp] theorem Line.endDead_hold : l.endDead (some .hold) = { l with driver := .driving .reject none none } := rfl

@[simp] theorem Line.endDead_action (kind : GateLine) (endAt : Position) (owner : Serial) :
    l.endDead (some (.action kind endAt owner)) = { l with driver := l.driven kind endAt owner } := by
  simp only [Line.endDead, Line.driven, Line.stopped, reached_iff]
  split_ifs <;> rfl

theorem Line.enterDead_none (kind : GateLine) : l.enterDead kind none = { l with driver := l.stopped kind } := by
  simp only [Line.enterDead, Line.stopped, Line.endDead_none]
  split_ifs <;> rfl

theorem Line.drive_eq (kind : GateLine) (endAt : Position) (owner : Serial) :
    l.drive kind endAt owner = { l with driver := l.driven kind endAt owner } := by
  simp only [Line.drive, Line.driven, reached_iff, Line.enterDead_none]
  split_ifs <;> rfl

/-! ### An action taken (R113 to R115) -/

theorem laterOf_eq (a b : Position) : laterOf a b = if 0 ≤ (a - b).toInt then a else b := by
  simp only [laterOf, reached_iff]

variable {l} {kind other : GateLine} {held endAt : Position} {owner : Serial}

/-- From IDLE the action drives its line (R113). -/
theorem Line.takeAction_idle (h : l.driver = .idle) :
    l.takeAction kind endAt owner = { l with driver := l.driven kind endAt owner } := by
  simp only [Line.takeAction, h, Line.drive_eq]

/-- An action of the kind in force extends it to the later end (R114). -/
theorem Line.takeAction_extends {o : Option Serial} (h : l.driver = .driving kind (some held) o) :
    l.takeAction kind endAt owner = { l with
      driver := .driving kind (some (if 0 ≤ (held - endAt).toInt then held else endAt)) (some owner) } := by
  simp only [Line.takeAction, h, if_true, Option.map_some, laterOf_eq]

/-- An action of the other kind cuts the one in force and becomes pending in DEAD (R115). -/
theorem Line.takeAction_cuts {o : Option Serial} (h : l.driver = .driving other (some held) o) (hk : other ≠ kind) :
    l.takeAction kind endAt owner = { l with
      lateNote := l.noteCut o
      driver := if l.config.deadTime = 0 then l.driven kind endAt owner
        else .dead other l.config.deadTime (some (.action kind endAt owner)) } := by
  simp only [Line.takeAction, h, if_neg hk, Line.cutOwner_eq, Line.enterDead, Line.endDead_action]
  split_ifs <;> rfl

/-- In DEAD the line of the same kind is driven again, one of the other kind becomes pending (R113, R115). -/
theorem Line.takeAction_dead {line : GateLine} {left : Nat} (h : l.driver = .dead line left none) :
    l.takeAction kind endAt owner = { l with
      driver := if line = kind then l.driven kind endAt owner
        else .dead line left (some (.action kind endAt owner)) } := by
  simp only [Line.takeAction, h, Line.drive_eq]
  split_ifs <;> rfl

/-- A pending action of the same kind is joined (R115). -/
theorem Line.takeAction_joins {line : GateLine} {left : Nat} {o : Serial}
    (h : l.driver = .dead line left (some (.action kind held o))) :
    l.takeAction kind endAt owner = { l with
      driver := .dead line left
        (some (.action kind (if 0 ≤ (held - endAt).toInt then held else endAt) owner)) } := by
  simp only [Line.takeAction, h, if_true, laterOf_eq]

/-- A pending action of the other kind gives way and is cut (R115). -/
theorem Line.takeAction_replaces {line : GateLine} {left : Nat} {o : Serial}
    (h : l.driver = .dead line left (some (.action other held o))) (hk : other ≠ kind) :
    l.takeAction kind endAt owner = { l with
      lateNote := l.noteCut (some o)
      driver := .dead line left (some (.action kind endAt owner)) } := by
  simp only [Line.takeAction, h, if_neg hk, Line.cutOwner_eq]

variable (l)

/-! ### The driver lets go (R118, R120) -/

/-- The driver once it has let go of its actions (R118). -/
def Line.driverLetGo : GateDriver :=
  match l.driver with
  | .idle => .idle
  | .driving kind _ _ => l.stopped kind
  | .dead line left _ => .dead line left none

/-- The late note once the driver has let go (R112, R118). -/
def Line.noteLetGo : Option LateNote :=
  match l.driver with
  | .driving _ _ (some o) => l.noteChanged o .cut
  | .dead _ _ (some (.action _ _ o)) => l.noteChanged o .cut
  | _ => l.lateNote

theorem Line.letGo_eq : l.letGo = { l with driver := l.driverLetGo, lateNote := l.noteLetGo } := by
  obtain ⟨_, _, _, _, _, _, _, _, _, driver, _⟩ := l
  rcases driver with _ | ⟨kind, endAt, _ | o⟩ | ⟨line, left, _ | ⟨k, e, o⟩ | _⟩
  case driving.some => simp only [Line.letGo, Line.cutOwner_eq, Line.enterDead_none]; rfl
  case driving.none => simp only [Line.letGo, Line.cutOwner_eq, Line.enterDead_none]; rfl
  case dead.some.action => simp only [Line.letGo, Line.cutOwner_eq]; rfl
  all_goals rfl

/-! ### HELD (R119, R120) -/

/-- The driver once the gate mode has entered HELD (R119). -/
def Line.driverHeld : GateDriver :=
  match l.driver with
  | .idle => .driving .reject none none
  | .driving .reject _ o => .driving .reject none o
  | .driving .pass _ _ =>
    if l.config.deadTime = 0 then .driving .reject none none else .dead .pass l.config.deadTime (some .hold)
  | .dead line left _ => .dead line left (some .hold)

/-- The late note once the gate mode has entered HELD (R111, R119). -/
def Line.noteHeld : Option LateNote :=
  match l.driver with
  | .driving .pass _ (some o) => l.noteChanged o .cut
  | .dead _ _ (some (.action _ _ o)) => l.noteChanged o .forced
  | _ => l.lateNote

theorem Line.enterHeld_eq :
    l.enterHeld = { l with gateMode := .held, driver := l.driverHeld, lateNote := l.noteHeld } := by
  obtain ⟨_, _, _, _, _, _, _, _, _, driver, _⟩ := l
  have cut : ∀ (m : Line) o, (m.cutOwner o).enterDead .pass (some .hold) = { m with
      lateNote := m.noteCut o
      driver := if m.config.deadTime = 0 then .driving .reject none none
        else .dead .pass m.config.deadTime (some .hold) } := fun m o => by
    simp only [Line.cutOwner_eq, Line.enterDead, Line.endDead_hold]
    split_ifs <;> rfl
  rcases driver with _ | ⟨_ | _, endAt, _ | o⟩ | ⟨line, left, _ | ⟨k, e, o⟩ | _⟩
  case driving.pass.some => exact cut _ _
  case driving.pass.none => exact cut _ _
  case dead.some.action => simp only [Line.enterHeld, Line.setNote_eq]; rfl
  all_goals rfl

/-- The driver once the gate mode has left HELD (R120). -/
def Line.driverReleased : GateDriver :=
  match l.driver with
  | .driving .reject none _ => l.stopped .reject
  | .dead line left (some .hold) => .dead line left none
  | d => d

theorem Line.release_eq : l.release = { l with gateMode := .active, driver := l.driverReleased } := by
  obtain ⟨_, _, _, _, _, _, _, _, _, driver, _⟩ := l
  rcases driver with _ | ⟨_ | _, _ | endAt, o⟩ | ⟨line, left, _ | ⟨k, e, o⟩ | _⟩
  case driving.reject.none => simp only [Line.release, Line.enterDead_none]; rfl
  all_goals rfl

/-- Settles O20. -/
theorem gateDriverTakesAndDropsActions : Obligations.GateDriverTakesAndDropsActions := by
  unfold Obligations.GateDriverTakesAndDropsActions
  refine ⟨fun l kind endAt owner => ⟨Line.takeAction_idle, fun other held o h => ⟨?_, Line.takeAction_cuts h⟩,
    fun line left h => ⟨fun hk => ?_, fun hk => ?_⟩,
    fun line left other held o h => ⟨?_, Line.takeAction_replaces h⟩⟩, Line.letGo_eq⟩
  · rintro rfl
    exact Line.takeAction_extends h
  · exact (Line.takeAction_dead h).trans (by rw [if_pos hk]; rfl)
  · exact (Line.takeAction_dead h).trans (by rw [if_neg hk])
  · rintro rfl
    exact Line.takeAction_joins h

end Sys2Proof.Machine
end

section
/-! SUPPORT. A report in its log, what follows it, and the gate hold trigger, each as the block it leaves (R125 to R127,
R144; O44). -/

namespace Sys2Proof.Machine

variable (b : Block)

/-- A rewrite asked for by a block with the internal master and the numbering of another. -/
theorem Block.askRewrite_beside {b c t : Block} (hm : c.master = b.master) (hs : c.stamp = b.stamp)
    (ht : t = { c with master := b.askRewrite.master, stamp := b.askRewrite.stamp }) : c.askRewrite = t :=
  (Block.askRewrite_of_master hm hs).trans ht.symm

/-- A rewrite does not depend on the line. -/
theorem Block.askRewrite_withLine (l : Line) :
    ({ b with line := l } : Block).askRewrite = { b.askRewrite with line := l } := by
  refine Block.askRewrite_beside (b := b) rfl rfl ?_
  apply Block.eq_of_parts <;> simp

/-! ### The log (R125, R126) -/

theorem RecordWriter.offer_room {w : RecordWriter} (h : w.queue.length < 32) (r : RingRecord) :
    w.offer r = { w with queue := w.queue ++ [r] } := if_pos h

theorem RecordWriter.offer_full {w : RecordWriter} (h : 32 ≤ w.queue.length) (r : RingRecord) :
    w.offer r = { w with drops := min 4294967295 (w.drops + 1) } := if_neg (Nat.not_lt.2 h)

/-- The block once a log has taken an error, with the notice and the rewrite that follow (R126). -/
def Block.noticed (e : LoggedError) (replacement : Bool) : Block :=
  { b.askRewrite with
    logs := b.logs.setLog e.code.source ⟨some e, (b.logs.log e.code.source).overflow⟩
    writer := b.writer.offer (.notice ⟨e, replacement, (b.logs.log e.code.source).overflow⟩) }

theorem Block.askRewrite_noticed (e : LoggedError) (replacement : Bool) :
    (({ b with logs := b.logs.setLog e.code.source ⟨some e, (b.logs.log e.code.source).overflow⟩ } : Block).offerNotice
      ⟨e, replacement, (b.logs.log e.code.source).overflow⟩).askRewrite = b.noticed e replacement := by
  refine Block.askRewrite_beside (b := b) rfl rfl ?_
  apply Block.eq_of_parts <;> simp [Block.noticed, Block.offerNotice]

variable {b} {e held : LoggedError}

/-- An empty log takes the error. -/
theorem Block.logError_takes (h : (b.logs.log e.code.source).held = none) : b.logError e = b.noticed e false := by
  have change : (b.logs.log e.code.source).change e.severity = .take := by simp only [ErrorLog.change, h]
  simp only [Block.logError, change]
  exact b.askRewrite_noticed e false

/-- A held error gives way to a strictly more severe one. -/
theorem Block.logError_replaces (h : (b.logs.log e.code.source).held = some held)
    (severe : held.severity.code < e.severity.code) : b.logError e = b.noticed e true := by
  have change : (b.logs.log e.code.source).change e.severity = .replacement := by
    simp only [ErrorLog.change, h, if_pos severe]
  simp only [Block.logError, change]
  exact b.askRewrite_noticed e true

/-- A first overflow sets the flag. -/
theorem Block.logError_overflows (h : (b.logs.log e.code.source).held = some held)
    (mild : e.severity.code ≤ held.severity.code) (clear : (b.logs.log e.code.source).overflow = false) :
    b.logError e = { b.askRewrite with logs := b.logs.setLog e.code.source ⟨some held, true⟩ } := by
  have change : (b.logs.log e.code.source).change e.severity = .firstOverflow := by
    simp only [ErrorLog.change, h, if_neg (Nat.not_lt.2 mild), clear, Bool.false_eq_true, if_false]
  simp only [Block.logError, change, h]
  refine Block.askRewrite_beside (b := b) rfl rfl ?_
  apply Block.eq_of_parts <;> simp

/-- A later overflow changes nothing. -/
theorem Block.logError_full (h : (b.logs.log e.code.source).held = some held)
    (mild : e.severity.code ≤ held.severity.code) (set : (b.logs.log e.code.source).overflow = true) :
    b.logError e = b := by
  have change : (b.logs.log e.code.source).change e.severity = .none := by
    simp only [ErrorLog.change, h, if_neg (Nat.not_lt.2 mild), set, if_true]
  simp only [Block.logError, change]

variable (b)

/-- What a notice leaves as it was (R126). -/
theorem Block.noticed_eq (e : LoggedError) (replacement : Bool) : b.noticed e replacement = { b with
    logs := (b.noticed e replacement).logs
    writer := (b.noticed e replacement).writer
    master := (b.noticed e replacement).master
    stamp := (b.noticed e replacement).stamp } := by
  apply Block.eq_of_parts <;> simp [Block.noticed]

/-! ### What follows a report (R127) -/

variable {b}

/-- A report of bad request parity, or of bad data parity at FATAL, contains its port. -/
theorem Block.report_contains (i : PortId) (h : match i with
      | .capture => e.code = .cAddrParity ∨ (e.code = .cDataParity ∧ e.severity = .fatal)
      | .system => e.code = .sAddrParity ∨ (e.code = .sDataParity ∧ e.severity = .fatal)) :
    b.report e = (b.logError e).containPort i := by
  cases i
  · rcases h with hc | ⟨hc, hs⟩
    · simp only [Block.report, Block.followReport, hc]
    · simp only [Block.report, Block.followReport, hc, hs, if_true]
  · rcases h with hc | ⟨hc, hs⟩
    · simp only [Block.report, Block.followReport, hc]
    · simp only [Block.report, Block.followReport, hc, hs, if_true]

/-- A report of L_QUEUE_FULL, or of L_FRAME_TIMEOUT or L_LATE when enabled, triggers gate hold. -/
theorem Block.report_holds (h : e.code = .lQueueFull ∨ (e.code = .lFrameTimeout ∧ b.line.config.holdOnTimeout = true)
      ∨ (e.code = .lLate ∧ b.line.config.holdOnLate = true)) : b.report e = (b.logError e).triggerHold := by
  rcases h with hc | ⟨hc, hs⟩ | ⟨hc, hs⟩
  · simp only [Block.report, Block.followReport, hc]
  · simp only [Block.report, Block.followReport, hc, Block.logError_frame, hs, if_true]
  · simp only [Block.report, Block.followReport, hc, Block.logError_frame, hs, if_true]

/-- Any other report goes to its log alone. -/
theorem Block.report_logs
    (capture : ¬ (e.code = .cAddrParity ∨ (e.code = .cDataParity ∧ e.severity = .fatal)))
    (system : ¬ (e.code = .sAddrParity ∨ (e.code = .sDataParity ∧ e.severity = .fatal)))
    (hold : ¬ (e.code = .lQueueFull ∨ (e.code = .lFrameTimeout ∧ b.line.config.holdOnTimeout = true)
      ∨ (e.code = .lLate ∧ b.line.config.holdOnLate = true))) : b.report e = b.logError e := by
  unfold Block.report Block.followReport
  split
  · next hc => exact absurd (.inl hc) capture
  · next hc => exact absurd (.inl hc) system
  · next hc => exact if_neg fun hs => capture (.inr ⟨hc, hs⟩)
  · next hc => exact if_neg fun hs => system (.inr ⟨hc, hs⟩)
  · next hc => exact absurd (.inl hc) hold
  · next hc => exact if_neg fun hs => hold (.inr (.inl ⟨hc, by simpa using hs⟩))
  · next hc => exact if_neg fun hs => hold (.inr (.inr ⟨hc, by simpa using hs⟩))
  · rfl

/-! ### The gate hold trigger (R119, R144) -/

theorem Block.triggerHold_of_held (h : b.line.gateMode = .held) : b.triggerHold = b := by
  simp only [Block.triggerHold, h]

theorem Block.triggerHold_eq (h : b.line.gateMode ≠ .held) : b.triggerHold = { b.askRewrite with line :=
    { b.line with gateMode := .held, driver := b.line.driverHeld, lateNote := b.line.noteHeld } } := by
  unfold Block.triggerHold
  split
  · contradiction
  · rw [Block.askRewrite_withLine, Line.enterHeld_eq]

/-- Settles O44. -/
theorem logTakesReplacesOrOverflows : Obligations.LogTakesReplacesOrOverflows := by
  unfold Obligations.LogTakesReplacesOrOverflows
  refine ⟨fun b e => ?_, fun b e => ⟨Block.report_contains, Block.report_holds, fun ports hold =>
    Block.report_logs (ports .capture) (ports .system) hold⟩,
    fun b => ⟨Block.triggerHold_of_held, Block.triggerHold_eq⟩⟩
  have noticed : ∀ replacement, b.logError e = b.noticed e replacement →
      (b.logError e).logs = b.logs.setLog e.code.source ⟨some e, (b.logs.log e.code.source).overflow⟩
      ∧ (b.writer.queue.length < 32 → (b.logError e).writer = { b.writer with
          queue := b.writer.queue ++ [.notice ⟨e, replacement, (b.logs.log e.code.source).overflow⟩] })
      ∧ (32 ≤ b.writer.queue.length → (b.logError e).writer =
          { b.writer with drops := min 4294967295 (b.writer.drops + 1) })
      ∧ (b.logError e).master = b.askRewrite.master ∧ (b.logError e).stamp = b.askRewrite.stamp
      ∧ b.logError e = { b with
          logs := (b.logError e).logs
          writer := (b.logError e).writer
          master := (b.logError e).master
          stamp := (b.logError e).stamp } := fun replacement h => by
    rw [h]
    exact ⟨rfl, fun room => RecordWriter.offer_room room _, fun full => RecordWriter.offer_full full _, rfl, rfl,
      b.noticed_eq e replacement⟩
  exact ⟨fun h => noticed false (Block.logError_takes h), fun held h =>
    ⟨fun severe => noticed true (Block.logError_replaces h severe), Block.logError_overflows h, Block.logError_full h⟩⟩

end Sys2Proof.Machine
end

section
/-! SUPPORT. The end of DEAD, the due tests at the head of the board queue, and the edges of BOARD_EDGE (R101 to R103,
R109, R110, R116; O16 to O19). -/

namespace Sys2Proof.Machine

/-! ### The end of DEAD (R116) -/

/-- The end of DEAD goes by the pending action, whatever is left of the interval. -/
theorem Line.endDead_withDriver (l : Line) (d : GateDriver) (p : Option Pending) :
    ({ l with driver := d } : Line).endDead p = l.endDead p := by
  rcases p with _ | ⟨kind, endAt, owner⟩ | _ <;> rfl

theorem Block.deadTimeEnd_eq {b : Block} {line : GateLine} {left : Nat} {p : Option Pending}
    (h : b.line.driver = .dead line left p) : b.deadTimeEnd = { b.elapse left with line := b.line.endDead p } := by
  simp only [Block.deadTimeEnd, Block.elapse, h, Line.endDead_withDriver]

/-- Settles O19. -/
theorem deadTimeEndTakesThePendingAction : Obligations.DeadTimeEndTakesThePendingAction := by
  unfold Obligations.DeadTimeEndTakesThePendingAction
  intro s line left pending h
  show Host.Outcome.next (s.withBlock s.block.deadTimeEnd) = _
  rw [Block.deadTimeEnd_eq h]
  rcases pending with _ | ⟨kind, endAt, owner⟩ | _
  · rfl
  · cases hr : reached s.block.line.position endAt
    · simp only [Line.endDead, hr, Bool.false_eq_true, if_false, if_true]
      rfl
    · by_cases hd : s.block.line.config.deadTime = 0
      · simp only [Line.endDead, hr, hd, Bool.true_eq_false, if_false, if_true]
        rfl
      · simp only [Line.endDead, hr, hd, Bool.true_eq_false, if_false, if_true]
        rfl
  · rfl

/-! ### Due boards (R109, R110) -/

theorem reached_eq_false (position target : Position) :
    reached position target = false ↔ (position - target).toInt < 0 := by
  simp [reached]

/-- A due head takes its action and leaves the queue, a rewrite is asked for, and the new head is tested. -/
theorem Block.dueBoards_due {b : Block} {x : Board} {rest : List Board} (n : Nat) (hq : b.line.queue = x :: rest)
    (hd : 0 ≤ (b.line.position - x.due).toInt) : Block.dueBoards (n + 1) b = Block.dueBoards n
      { (b.dueAction x).askRewrite with line := { (b.dueAction x).line with queue := rest } } := by
  rw [b.dueBoards_next n x rest hq ((reached_iff _ _).2 hd), Block.askRewrite_withLine]

theorem Block.dueAction_judged (b : Block) {x : Board} {f : FrameNumber} {v : BoardVerdict}
    (h : x.state = .judged f v) : b.dueAction x = { b with line := (b.line.gateAction v.line x).1 } := by
  simp only [Block.dueAction, h]

theorem Block.dueAction_imaging (b : Block) {x : Board} {f : FrameNumber} (h : x.state = .imaging f) :
    b.dueAction x = ({ b with line := { (b.line.gateAction .reject x).1 with
      lateNote := some ⟨x.serial, (b.line.gateAction .reject x).2⟩ } } : Block).report
        ⟨.lLate, .minor, 0, 0, x.serial⟩ := by
  simp only [Block.dueAction, h]

theorem Block.dueAction_awaiting (b : Block) {x : Board} (h : x.state = .awaitingImage) :
    b.dueAction x = { b with
      line := (b.line.gateAction .reject x).1
      writer := b.writer.offer (.board (b.notImagedResult x (b.line.gateAction .reject x).2)) } := by
  simp only [Block.dueAction, h]
  rfl

/-- In mode ACTIVE an action taken from IDLE, its end not reached, drives its line (R111, R113). -/
theorem Line.gateAction_drives {l : Line} {x : Board} (hm : l.gateMode = .active) (hi : l.driver = .idle)
    (hr : reached l.position (x.due + BitVec.ofNat 32 l.config.window) = false) (kind : GateLine) :
    (l.gateAction kind x).1 = { l with
      driver := .driving kind (some (x.due + BitVec.ofNat 32 l.config.window)) (some x.serial) } := by
  have ahead : ¬ 0 ≤ (l.position - (x.due + BitVec.ofNat 32 l.config.window)).toInt :=
    Int.not_le.2 ((reached_eq_false _ _).1 hr)
  simp only [Line.gateAction, hm, Line.takeAction_idle hi, Line.driven, if_neg ahead]

/-- Settles O16. -/
theorem dueBoardTakesItsAction : Obligations.DueBoardTakesItsAction := by
  unfold Obligations.DueBoardTakesItsAction
  refine ⟨fun n b h => b.dueBoards_stop n fun x rest hq => ?_, fun n b board rest hq hd =>
    ⟨fun f v hs => ?_, fun f hs => ?_, fun hs => ?_⟩, fun b board boards f v hq hs hd others hm hi hr => ?_⟩
  · rcases h with h | ⟨y, more, h, early⟩
    · cases hq.symm.trans h
    · cases hq.symm.trans h
      exact (reached_eq_false _ _).2 early
  · rw [Block.dueBoards_due n hq hd, b.dueAction_judged hs]
    rfl
  · rw [Block.dueBoards_due n hq hd, b.dueAction_imaging hs]
    rfl
  · rw [Block.dueBoards_due n hq hd, b.dueAction_awaiting hs]
    rfl
  · rw [congrArg List.length hq, List.length_cons, Block.dueBoards_due _ hq ((reached_iff _ _).1 hd),
      b.dueAction_judged hs, Line.gateAction_drives hm hi hr, Block.askRewrite_withLine]
    refine Block.dueBoards_stop _ _ fun x rest hx => others x ?_
    rw [show boards = x :: rest from hx]
    exact List.mem_cons_self

/-! ### Board edges (R101 to R103) -/

theorem Polarity.leadingLevel_eq (p : Polarity) : p.leadingLevel = decide (p = .rising) := by cases p <;> rfl

variable {b : Block}

/-- An edge in the leading direction settles the level and is handed to board entry. -/
theorem Block.boardEdgeLeading_eq (h : b.line.settled ≠ decide (b.line.config.polarity = .rising)) :
    b.boardEdgeLeading = (b.settleEdge (decide (b.line.config.polarity = .rising))).leadingEdge := by
  simp only [Block.boardEdgeLeading, Block.edgeTo, Polarity.leadingLevel_eq, if_neg h, if_true]

theorem Block.boardEdgeLeading_settled (h : b.line.settled = decide (b.line.config.polarity = .rising)) :
    b.boardEdgeLeading = b := by
  simp only [Block.boardEdgeLeading, Polarity.leadingLevel_eq, if_pos h]

theorem Block.boardEdgeTrailing_eq (h : b.line.settled = decide (b.line.config.polarity = .rising)) :
    b.boardEdgeTrailing = b.settleEdge (!b.line.settled) := by
  simp only [Block.boardEdgeTrailing, Block.edgeTo, Polarity.leadingLevel_eq, ← h, if_true, Bool.not_eq_self, if_false]

theorem Block.boardEdgeTrailing_settled (h : b.line.settled ≠ decide (b.line.config.polarity = .rising)) :
    b.boardEdgeTrailing = b := by
  simp only [Block.boardEdgeTrailing, Polarity.leadingLevel_eq, if_neg h]

theorem Block.leadingEdge_invalid (h : b.line.config.valid = false) : b.leadingEdge = b := by
  simp only [Block.leadingEdge, h, Bool.not_false, if_true]

/-- With room a board enters at the tail (R102). -/
theorem Block.leadingEdge_enters (hv : b.line.config.valid = true) (room : b.line.queue.length < 8) :
    b.leadingEdge = { b.askRewrite with line := { b.line with
      serial := b.line.serial + 1
      queue := b.line.queue ++ [⟨b.line.serial, b.line.position,
        b.line.position + BitVec.ofNat 32 b.line.config.diverter, .awaitingImage⟩] } } := by
  have room : b.line.queue.length < Config.boardPlaces := room
  simp only [Block.leadingEdge, hv, Bool.not_true, Bool.false_eq_true, if_false, if_pos room]
  exact b.askRewrite_withLine _

/-- A full queue takes no board: it is counted and reported (R103). -/
theorem Block.leadingEdge_full (hv : b.line.config.valid = true) (full : 8 ≤ b.line.queue.length) :
    b.leadingEdge = (({ b with line := { b.line with untracked := min 65535 (b.line.untracked + 1) } } : Block).report
      ⟨.lQueueFull, .fatal, 0, 0, b.line.serial⟩).askRewrite := by
  have full : ¬ b.line.queue.length < Config.boardPlaces := Nat.not_lt.2 full
  simp only [Block.leadingEdge, hv, Bool.not_true, Bool.false_eq_true, if_false, if_neg full]
  rfl

/-- Settles O17. -/
theorem boardEdgeSettlesAndEntersBoards : Obligations.BoardEdgeSettlesAndEntersBoards := by
  unfold Obligations.BoardEdgeSettlesAndEntersBoards
  have leading : ∀ s : State, exec .boardEdgeLeading s = .next (s.withBlock s.block.boardEdgeLeading) := fun _ => rfl
  have trailing : ∀ s : State, exec .boardEdgeTrailing s = .next (s.withBlock s.block.boardEdgeTrailing) :=
    fun _ => rfl
  have sample : ∀ (s : State) high, exec (.boardEdgeSample high) s = .next (s.withBlock (s.block.edgeSample high)) :=
    fun _ _ => rfl
  refine ⟨fun s => ⟨fun h hv room => ?_, fun h => ⟨fun hv => ?_, ?_⟩, fun h => ⟨?_, ?_⟩⟩,
    fun s high => ⟨fun h => ?_, fun h few => ?_, fun h three => ⟨fun ht => ?_, fun hl => ?_⟩⟩⟩
  · rw [leading, Block.boardEdgeLeading_eq h, Block.leadingEdge_enters (b := s.block.settleEdge _) hv room,
      Block.settleEdge, Block.askRewrite_withLine]
  · rw [leading, Block.boardEdgeLeading_eq h, Block.leadingEdge_invalid (b := s.block.settleEdge _) hv,
      Bool.eq_not_of_ne h.symm]
    rfl
  · rw [trailing, Block.boardEdgeTrailing_settled h]
    rfl
  · rw [leading, Block.boardEdgeLeading_settled h]
    rfl
  · rw [trailing, Block.boardEdgeTrailing_eq h]
    rfl
  · rw [sample, Block.edgeSample, if_pos h]
  · rw [sample, Block.edgeSample, if_neg h, if_pos (by omega)]
  · rw [sample, Block.edgeSample, if_neg h, if_neg (by omega), Block.edgeTo, Polarity.leadingLevel_eq, if_neg ht]
    rfl
  · rw [sample, Block.edgeSample, if_neg h, if_neg (by omega), Block.edgeTo, Polarity.leadingLevel_eq, if_pos hl,
      leading, Block.boardEdgeLeading_eq (hl ▸ h.symm), hl]

/-! ### A full board queue (R103, R143, R144) -/

/-- A report of L_QUEUE_FULL changes the gate of the line alone. -/
theorem Block.report_queueFull_line {e : LoggedError} (h : e.code = .lQueueFull) :
    (b.report e).line = if b.line.gateMode = .held then b.line else b.line.enterHeld := by
  simp only [Block.report_holds (.inl h), Block.triggerHold_line, Block.logError_frame]

/-- Settles O18. -/
theorem fullBoardQueueHoldsTheGate : Obligations.FullBoardQueueHoldsTheGate := by
  unfold Obligations.FullBoardQueueHoldsTheGate
  intro s h hv full counted reported
  have holds : reported = (counted.logError ⟨.lQueueFull, .fatal, 0, 0, s.block.line.serial⟩).triggerHold :=
    Block.report_holds (.inl rfl)
  have edge : s.block.boardEdgeLeading = reported.askRewrite := by
    rw [Block.boardEdgeLeading_eq h, Block.leadingEdge_full (b := s.block.settleEdge _) hv full,
      Bool.eq_not_of_ne h.symm]
    rfl
  refine ⟨congrArg (fun t => Host.Outcome.next (s.withBlock t)) edge, ?_, ?_, ?_, ?_, fun empty => ?_, ?_⟩
  · exact (counted.report_boards _).1
  · exact (counted.report_boards _).2.1
  · show (counted.report _).line.untracked = _
    rw [Block.report_queueFull_line rfl]
    split
    · rfl
    · simp [counted]
  · rw [holds]
    exact Block.triggerHold_mode _
  · rw [holds, Block.logError_takes (b := counted) (e := ⟨.lQueueFull, .fatal, 0, 0, s.block.line.serial⟩) empty]
    simp [Block.noticed, ErrorCode.source, ErrorLogs.setLog]
  · rw [holds]
    simp [counted]

end Sys2Proof.Machine
end

section
/-! SUPPORT. The two commands that change the line alone: SET_LINE (R118, R190, R191; O37) and RELEASE_GATE (R120, R145;
O40). -/

namespace Sys2Proof.Machine

/-- A command row whose owner changes the line alone, whether it asks for a rewrite or not (R185, R194). -/
theorem Block.commandWrite_line (b : Block) {kind : Nat} (fields : List SlotField) (inHand : Bool) (h0 : kind ≠ 0)
    (h : kind < 2 ^ 32) {c : Block} {l : Line} {o : CommandOutcome}
    (hd : (b.copied kind fields).decideCommand kind inHand = (c, o))
    (hc : c = { b.copied kind fields with line := l }
      ∨ c = ({ b.copied kind fields with line := l } : Block).askRewrite) :
    b.commandWrite kind fields inHand =
      { b.askRewrite with decoder := b.decoder.took kind fields o, line := l } := by
  have asked := Block.askRewrite_congr (b := { b.copied kind fields with line := l }) (c := b) (by simp) (by simp)
  rcases hc with rfl | rfl
  · rw [b.commandWrite_decided kind fields inHand h0 h _ o hd (.inl (by simp))]
    apply Block.eq_of_parts <;> simp [Block.copied, Decoder.took]
  · rw [b.commandWrite_decided kind fields inHand h0 h _ o hd (.inr asked)]
    apply Block.eq_of_parts <;> simp [Block.copied, Decoder.took]

/-! ### RELEASE_GATE (R145) -/

/-- Settles O40. -/
theorem releaseGateLeavesHeld : Obligations.ReleaseGateLeavesHeld := by
  unfold Obligations.ReleaseGateLeavesHeld
  refine ⟨fun s h => ?_, fun s h => ?_⟩
  · have decided : (s.block.copied 8 []).decideCommand 8 false = (s.block.copied 8 [], .wrongState) := by
      simp only [Block.decideCommand, Block.releaseGate]
      split
      · next held => exact absurd held h
      · rfl
    exact congrArg (fun t => Host.Outcome.next (s.withBlock t))
      (s.block.commandWrite_same 8 [] false (by decide) (by decide) _ decided)
  · have decided : (s.block.copied 8 []).decideCommand 8 false =
        (({ s.block.copied 8 [] with line := s.block.line.release } : Block).askRewrite, .done) := by
      simp only [Block.decideCommand, Block.releaseGate, Block.copied_frame, h]
    show Host.Outcome.next (s.withBlock (s.block.commandWrite 8 [] false)) = _
    rw [s.block.commandWrite_line [] false (by decide) (by decide) decided (.inr rfl), Line.release_eq]
    rfl

/-! ### SET_LINE (R190, R191) -/

/-- The line under a new configuration, with the gate mode argument (R118, R191). -/
def Line.configured (l : Line) (config : LineConfig) (gate : GateModeArg) : Line :=
  match gate, l.gateMode with
  | .off, .active => ({ l with config := config, gateMode := .off } : Line).letGo
  | .active, .off => { l with config := config, gateMode := .active }
  | _, _ => { l with config := config }

/-- What SET_LINE does with good arguments: it changes the line, and a change of the gate mode asks for a rewrite. -/
theorem Block.setGateMode_configured (b : Block) (config : LineConfig) (gate : GateModeArg) :
    ({ b with line := { b.line with config := config } } : Block).setGateMode gate =
        { b with line := b.line.configured config gate }
    ∨ ({ b with line := { b.line with config := config } } : Block).setGateMode gate =
        ({ b with line := b.line.configured config gate } : Block).askRewrite := by
  rcases hm : b.line.gateMode <;> cases gate <;> simp only [Block.setGateMode, Line.configured, hm, true_or, or_true]

theorem Block.setLine_configures {b : Block} {config : LineConfig} {gate : GateModeArg}
    (ha : b.decoder.lineArguments = some (config, gate)) (hq : b.line.queue = [])
    (hg : b.line.gateMode = .held → gate = .keep) :
    b.setLine = (({ b with line := { b.line with config := config } } : Block).setGateMode gate, .done) := by
  have keeps : ¬ (b.line.gateMode = .held ∧ gate ≠ .keep) := fun ⟨held, other⟩ => other (hg held)
  simp only [Block.setLine, ha, hq, List.isEmpty_nil, Bool.not_true, Bool.false_eq_true, if_false, if_neg keeps]

/-- A row of SET_LINE with good arguments changes the line, and is counted and recorded (R185, R191). -/
theorem Block.commandWrite_setLine {b : Block} {fields : List SlotField} {config : LineConfig} {gate : GateModeArg}
    (ha : (b.copied 4 fields).decoder.lineArguments = some (config, gate)) (hq : b.line.queue = [])
    (hg : b.line.gateMode = .held → gate = .keep) : b.commandWrite 4 fields false =
      { b.askRewrite with decoder := b.decoder.took 4 fields .done, line := b.line.configured config gate } := by
  have line : (b.copied 4 fields).line = b.line := by simp only [Block.copied_frame]
  have decided : (b.copied 4 fields).decideCommand 4 false = (b.copied 4 fields).setLine := rfl
  rw [Block.setLine_configures ha (by rw [line, hq]) (by rwa [line])] at decided
  have configured := (b.copied 4 fields).setGateMode_configured config gate
  rw [line] at decided configured
  exact b.commandWrite_line fields false (by decide) (by decide) decided configured

/-- The line after SET_LINE, with each of its fields written out. -/
theorem Line.configured_eq (l : Line) (config : LineConfig) {gate : GateModeArg}
    (hg : l.gateMode = .held → gate = .keep) : l.configured config gate = { l with
      gateMode := if gate = .off then .off else if gate = .active then .active else l.gateMode
      driver :=
        if l.gateMode = .active ∧ gate = .off then ({ l with config := config } : Line).driverLetGo else l.driver
      lateNote := if l.gateMode = .active ∧ gate = .off then l.noteLetGo else l.lateNote
      config := config } := by
  obtain ⟨_, _, _, _, _, _, _, _, mode, _, _⟩ := l
  cases gate
  case off => cases mode with
    | held => cases hg rfl
    | active => exact Line.letGo_eq _
    | off => rfl
  case active => cases mode with
    | held => cases hg rfl
    | active => rfl
    | off => rfl
  case keep => cases mode <;> rfl

/-- The configuration that SET_LINE's arguments name (R190, R202). -/
def lineConfigOf (a : LineArgs) : LineConfig where
  valid := true
  diverter := a.diverter.toNat
  window := a.window.toNat
  deadTime := a.deadTime.toNat
  timeout := a.timeout.toNat
  sense := if a.direction = 0 then .normal else .reversed
  polarity := if a.edge = 0 then .rising else .falling
  report := if a.report = 0 then .all else if a.report = 1 then .defects else .none
  holdOnContain := a.holds.getLsbD 0
  holdOnTimeout := a.holds.getLsbD 1
  holdOnLate := a.holds.getLsbD 2

/-- The gate mode argument that they name (R202). -/
def gateArgOf (a : LineArgs) : GateModeArg :=
  if a.gateMode = 1 then .off else if a.gateMode = 2 then .active else .keep

theorem byte_le_one {x : Byte} (h : x.toNat ≤ 1) : x = 0 ∨ x = 1 := by bv_omega

theorem byte_le_two {x : Byte} (h : x.toNat ≤ 2) : x = 0 ∨ x = 1 ∨ x = 2 := by bv_omega

theorem senseOfCode_eq {x : Byte} (h : x.toNat ≤ 1) :
    senseOfCode x.toNat = some (if x = 0 then .normal else .reversed) := by
  rcases byte_le_one h with rfl | rfl <;> rfl

theorem polarityOfCode_eq {x : Byte} (h : x.toNat ≤ 1) :
    polarityOfCode x.toNat = some (if x = 0 then .rising else .falling) := by
  rcases byte_le_one h with rfl | rfl <;> rfl

theorem reportModeOfCode_eq {x : Byte} (h : x.toNat ≤ 2) :
    reportModeOfCode x.toNat = some (if x = 0 then .all else if x = 1 then .defects else .none) := by
  rcases byte_le_two h with rfl | rfl | rfl <;> rfl

theorem gateModeOfCode_eq {a : LineArgs} (h : a.gateMode.toNat ≤ 2) :
    gateModeOfCode a.gateMode.toNat = some (gateArgOf a) := by
  unfold gateArgOf
  rcases byte_le_two h with hx | hx | hx <;> rw [hx] <;> rfl

/-- SET_LINE's arguments in range name every setting (R190, R202). -/
theorem Block.copied_lineConfig (b : Block) {a : LineArgs} (h : lineInRange a) :
    (b.copied 4 (lineFields a)).decoder.lineArguments = some (lineConfigOf a, gateArgOf a) := by
  have arguments := b.copied_lineFields a
  simp only [lineFields, List.forall_mem_cons, List.not_mem_nil, false_implies, implies_true, and_true] at arguments
  obtain ⟨h1, h2, h3, h4, h5, h6, h7, h8, h9⟩ := arguments
  obtain ⟨d1, d2, w1, w2, dead, timeout, sense, polarity, report, holds, gate⟩ := h
  simp only [Decoder.lineArguments, lineFields, h1, h2, h3, h4, h5, h6, h7, h8, h9,
    senseOfCode_eq sense, polarityOfCode_eq polarity, reportModeOfCode_eq report, gateModeOfCode_eq gate]
  exact if_pos ⟨d1, d2, w1, w2, dead, timeout, holds⟩

theorem gateArgOf_off (a : LineArgs) : gateArgOf a = .off ↔ a.gateMode = 1 := by
  unfold gateArgOf
  split_ifs with h1 h2
  · exact iff_of_true rfl h1
  · exact iff_of_false nofun h1
  · exact iff_of_false nofun h1

theorem gateArgOf_active (a : LineArgs) : gateArgOf a = .active ↔ a.gateMode = 2 := by
  unfold gateArgOf
  split_ifs with h1 h2
  · exact iff_of_false nofun (by rw [h1]; decide)
  · exact iff_of_true rfl h2
  · exact iff_of_false nofun h2

/-- The driver let go under the new dead time (R118). -/
theorem Line.driverLetGo_configured (l : Line) (a : LineArgs) :
    ({ l with config := lineConfigOf a } : Line).driverLetGo = match l.driver with
      | .idle => .idle
      | .driving kind _ _ => if a.deadTime = 0 then .idle else .dead kind a.deadTime.toNat none
      | .dead line left _ => .dead line left none := by
  have zero : a.deadTime.toNat = 0 ↔ a.deadTime = 0 := by rw [← BitVec.toNat_inj]; rfl
  cases l.driver <;> simp only [Line.driverLetGo, Line.stopped, lineConfigOf, zero]

/-- Settles O37. -/
theorem setLineTakesEverySetting : Obligations.SetLineTakesEverySetting := by
  unfold Obligations.SetLineTakesEverySetting
  intro s a inRange hq hheld off
  have hgate : s.block.line.gateMode = .held → gateArgOf a = .keep := fun held => by
    simp [gateArgOf, hheld held]
  show Host.Outcome.next (s.withBlock (s.block.commandWrite 4 (lineFields a) false)) = _
  rw [Block.commandWrite_setLine (s.block.copied_lineConfig inRange) hq hgate, Line.configured_eq _ _ hgate,
    Line.driverLetGo_configured]
  simp only [gateArgOf_off, gateArgOf_active]
  rfl

end Sys2Proof.Machine
end

section
/-! SUPPORT. What an operation of the gate leaves as it was: the position, HELD as long as the hold, and, while there is
a dead time, the line that stands between its end and the next action (R112, R119, R120; O45, O50, O53). -/

namespace Sys2Proof.Machine

/-! ### The driver -/

/-- The line that the driver drives, or whose DEAD interval runs. -/
def GateDriver.line? : GateDriver → Option GateLine
  | .idle => none
  | .driving kind _ _ => some kind
  | .dead line _ _ => some line

/-- The line is active (R112). -/
def GateDriver.drives (kind : GateLine) : GateDriver → Bool
  | .driving k _ _ => k == kind
  | _ => false

/-- Every line driven has an end, and no hold is pending. -/
def GateDriver.Free : GateDriver → Prop
  | .driving _ none _ => False
  | .dead _ _ (some .hold) => False
  | _ => True

theorem GateDriver.passGate_eq (d : GateDriver) : d.passGate = d.drives .pass := by
  rcases d with _ | ⟨_ | _, _, _⟩ | _ <;> rfl

theorem GateDriver.rejectGate_eq (d : GateDriver) : d.rejectGate = d.drives .reject := by
  rcases d with _ | ⟨_ | _, _, _⟩ | _ <;> rfl

theorem GateDriver.line?_of_drives {d : GateDriver} {kind : GateLine} (h : d.drives kind = true) :
    d.line? = some kind := by
  cases d with
  | driving k endAt o => exact congrArg some (eq_of_beq h)
  | idle => cases h
  | dead line left pending => cases h

variable {l m : Line}

/-- In HELD the line is sound when the driver holds the gate (R119). -/
theorem Line.HoldSound.of_holds (held : l.gateMode = .held) (h : l.driver.holdsGate = true) : l.HoldSound := by
  refine ⟨iff_of_true held h, fun o ho => ?_⟩
  rw [ho] at h
  cases h

/-- In another mode it is sound when the driver is free (R120). -/
theorem Line.HoldSound.of_free (other : l.gateMode ≠ .held) (free : l.driver.Free) : l.HoldSound := by
  refine ⟨iff_of_false other fun h => ?_, fun o ho => by rw [ho] at free; exact free⟩
  rcases hd : l.driver with _ | ⟨_ | _, _ | _, _⟩ | ⟨_, _, _ | _ | _⟩ <;> rw [hd] at free h
  case driving.reject.none => exact free
  case dead.some.hold => exact free
  all_goals cases h

theorem Line.HoldSound.free (h : l.HoldSound) (other : l.gateMode ≠ .held) : l.driver.Free := by
  have holds : l.driver.holdsGate ≠ true := mt h.held.2 other
  rcases hd : l.driver with _ | ⟨_ | _, _ | _, o⟩ | ⟨_, _, _ | _ | _⟩
  case driving.pass.none => exact h.passEnds o hd
  case driving.reject.none => exact holds (by rw [hd]; rfl)
  case dead.some.hold => exact holds (by rw [hd]; rfl)
  all_goals trivial

/-- The soundness of the hold is that of gate mode and driver. -/
theorem Line.HoldSound.congr (h : l.HoldSound) (hm : m.gateMode = l.gateMode) (hd : m.driver = l.driver) :
    m.HoldSound := ⟨by rw [hm, hd]; exact h.held, by rw [hd]; exact h.passEnds⟩

theorem Line.stopped_free (l : Line) (kind : GateLine) : (l.stopped kind).Free := by
  unfold Line.stopped
  split_ifs <;> trivial

theorem Line.driven_free (l : Line) (kind : GateLine) (endAt : Position) (owner : Serial) :
    (l.driven kind endAt owner).Free := by
  unfold Line.driven
  split_ifs
  · exact l.stopped_free kind
  · trivial

theorem Line.stopped_line (hd : l.config.deadTime ≠ 0) (kind : GateLine) : (l.stopped kind).line? = some kind := by
  rw [Line.stopped, if_neg hd]
  rfl

theorem Line.driven_line (hd : l.config.deadTime ≠ 0) (kind : GateLine) (endAt : Position) (owner : Serial) :
    (l.driven kind endAt owner).line? = some kind := by
  unfold Line.driven
  split_ifs
  · exact l.stopped_line hd kind
  · rfl

/-! ### What a change of the gate keeps -/

/-- The position and the dead time are as they were, a sound hold stays sound, and while there is a dead time the line
of the driver stays its line. -/
structure Line.Turns (l m : Line) : Prop where
  position : m.position = l.position
  deadTime : m.config.deadTime = l.config.deadTime
  hold : l.HoldSound → m.HoldSound
  line : l.config.deadTime ≠ 0 → ∀ kind, l.driver.line? = some kind → m.driver.line? = some kind

theorem Line.Turns.trans {n : Line} (h : l.Turns m) (h' : m.Turns n) : l.Turns n where
  position := h'.position.trans h.position
  deadTime := h'.deadTime.trans h.deadTime
  hold := h'.hold ∘ h.hold
  line dead kind hk := h'.line (h.deadTime ▸ dead) kind (h.line dead kind hk)

/-- A change of other fields. -/
theorem Line.Turns.of_same (hp : m.position = l.position) (hc : m.config = l.config) (hm : m.gateMode = l.gateMode)
    (hd : m.driver = l.driver) : l.Turns m :=
  ⟨hp, by rw [hc], fun h => h.congr hm hd, fun _ _ h => hd ▸ h⟩

theorem Line.Turns.refl (l : Line) : l.Turns l := .of_same rfl rfl rfl rfl

theorem Line.Turns.of_eq (h : m = l) : l.Turns m := h ▸ .refl l

/-- A line becomes active in such a change only from IDLE, or from DEAD of the same line (R112). -/
theorem Line.Turns.activates (h : l.Turns m) (dead : l.config.deadTime ≠ 0) {kind : GateLine}
    (active : m.driver.drives kind = true) (inactive : l.driver.drives kind = false) :
    l.driver = .idle ∨ ∃ left pending, l.driver = .dead kind left pending := by
  have now := GateDriver.line?_of_drives active
  rcases hd : l.driver with _ | ⟨k, endAt, o⟩ | ⟨k, left, pending⟩
  · exact .inl rfl
  · obtain rfl : k = kind := Option.some.inj ((h.line dead k (by rw [hd]; rfl)).symm.trans now)
    rw [hd] at inactive
    exact absurd (beq_self_eq_true k) (ne_true_of_eq_false inactive)
  · obtain rfl : k = kind := Option.some.inj ((h.line dead k (by rw [hd]; rfl)).symm.trans now)
    exact .inr ⟨left, pending, rfl⟩

/-! ### The operations -/

/-- The end of the gate window stops a line that has an end (R117). -/
theorem Line.turns_windowEnd (l : Line) : l.Turns l.windowEnd := by
  refine ⟨by simp, by simp, fun h => ?_, fun dead kind hk => ?_⟩
  · unfold Line.windowEnd
    split
    · next k endAt o hd =>
      split
      · rw [Line.enterDead_none]
        refine .of_free (fun held => ?_) (l.stopped_free k)
        have holds := h.held.1 held
        rw [hd] at holds
        cases k <;> cases holds
      · exact h
    · exact h
  · unfold Line.windowEnd
    split
    · next k endAt o hd =>
      rw [hd] at hk
      cases hk
      split
      · rw [Line.enterDead_none]
        exact l.stopped_line dead kind
      · rw [hd]; rfl
    · exact hk

/-- Taking an action keeps the driver free (R113 to R115). -/
theorem Line.takeAction_free (free : l.driver.Free) (kind : GateLine) (endAt : Position) (owner : Serial) :
    (l.takeAction kind endAt owner).driver.Free := by
  rcases hd : l.driver with _ | ⟨k, _ | held, o⟩ | ⟨line, left, _ | ⟨k, held, o⟩ | _⟩
  · rw [Line.takeAction_idle hd]
    exact l.driven_free kind endAt owner
  · rw [hd] at free
    exact free.elim
  · by_cases hk : k = kind
    · subst hk
      rw [Line.takeAction_extends hd]
      trivial
    · rw [Line.takeAction_cuts hd hk]
      show GateDriver.Free (if _ then _ else _)
      split
      · exact l.driven_free kind endAt owner
      · trivial
  · rw [Line.takeAction_dead hd]
    show GateDriver.Free (if _ then _ else _)
    split
    · exact l.driven_free kind endAt owner
    · trivial
  · by_cases hk : k = kind
    · subst hk
      rw [Line.takeAction_joins hd]
      trivial
    · rw [Line.takeAction_replaces hd hk]
      trivial
  · rw [hd] at free
    exact free.elim

theorem Line.enterDead_line (dead : l.config.deadTime ≠ 0) (kind : GateLine) (p : Option Pending) :
    (l.enterDead kind p).driver.line? = some kind := by
  rw [Line.enterDead, if_neg dead]
  rfl

/-- While there is a dead time, an action is taken with the line of the driver as it stands (R113 to R115). -/
theorem Line.takeAction_line (dead : l.config.deadTime ≠ 0) {line : GateLine} (hl : l.driver.line? = some line)
    (kind : GateLine) (endAt : Position) (owner : Serial) :
    (l.takeAction kind endAt owner).driver.line? = some line := by
  unfold Line.takeAction
  split <;> rename_i hd <;> rw [hd] at hl <;> cases hl
  · split
    · rfl
    · exact Line.enterDead_line (by simpa using dead) _ _
  · split
    · next hk => rw [Line.drive_eq, ← hk]; exact l.driven_line dead _ _ _
    · rfl
  · split <;> rfl
  · rw [hd]; rfl

/-- A due board's action is taken in mode ACTIVE alone (R111). -/
theorem Line.turns_gateAction (l : Line) (kind : GateLine) (x : Board) : l.Turns (l.gateAction kind x).1 := by
  refine ⟨by simp, by simp, fun h => ?_, fun dead line hl => ?_⟩
  · unfold Line.gateAction
    split
    · next active =>
      have other : l.gateMode ≠ .held := by rw [active]; nofun
      exact .of_free (by simpa using other) (Line.takeAction_free (h.free other) _ _ _)
    · exact h
    · exact h
  · unfold Line.gateAction
    split
    · exact Line.takeAction_line dead hl _ _ _
    · exact hl
    · exact hl

/-- Entry into HELD leaves the driver holding the gate (R119). -/
theorem Line.turns_enterHeld (l : Line) : l.Turns l.enterHeld := by
  refine ⟨by simp, by simp, fun _ => .of_holds (by simp) ?_, fun dead kind hk => ?_⟩
  · rw [Line.enterHeld_eq]
    rcases hd : l.driver with _ | ⟨_ | _, endAt, o⟩ | ⟨line, left, p⟩ <;> simp only [Line.driverHeld, hd]
    case driving.pass => split <;> rfl
    all_goals rfl
  · rw [Line.enterHeld_eq]
    rcases hd : l.driver with _ | ⟨_ | _, endAt, o⟩ | ⟨line, left, p⟩ <;> rw [hd] at hk <;> cases hk <;>
      simp only [Line.driverHeld, hd, if_neg dead]
    all_goals rfl

/-- A driver let go is free, and drives no line (R118, R122). -/
theorem Line.driverLetGo_free (l : Line) : l.driverLetGo.Free ∧ ∀ kind, l.driverLetGo.drives kind = false := by
  unfold Line.driverLetGo Line.stopped
  split
  · exact ⟨trivial, fun _ => rfl⟩
  · split
    · exact ⟨trivial, fun _ => rfl⟩
    · exact ⟨trivial, fun _ => rfl⟩
  · exact ⟨trivial, fun _ => rfl⟩

theorem Line.turns_letGo (hm : l.gateMode ≠ .held) : l.Turns l.letGo := by
  refine ⟨by simp, by simp, fun _ => .of_free (by simpa using hm) ?_, fun dead kind hk => ?_⟩
  · rw [Line.letGo_eq]
    exact l.driverLetGo_free.1
  · rw [Line.letGo_eq]
    rcases hd : l.driver with _ | ⟨k, endAt, o⟩ | ⟨k, left, p⟩ <;> rw [hd] at hk <;> cases hk <;>
      simp only [Line.driverLetGo, hd]
    · exact l.stopped_line dead kind
    · rfl

/-- Release leaves the driver free (R120). -/
theorem Line.turns_release (l : Line) : l.Turns l.release := by
  refine ⟨by simp, by simp, fun h => .of_free (by simp) ?_, fun dead kind hk => ?_⟩
  · rw [Line.release_eq]
    rcases hd : l.driver with _ | ⟨_ | _, _ | endAt, o⟩ | ⟨line, left, _ | _ | _⟩ <;>
      simp only [Line.driverReleased, hd]
    case driving.pass.none => exact h.passEnds o hd
    case driving.reject.none => exact l.stopped_free .reject
    all_goals trivial
  · rw [Line.release_eq]
    rcases hd : l.driver with _ | ⟨_ | _, _ | endAt, o⟩ | ⟨line, left, _ | _ | _⟩ <;>
      simp only [Line.driverReleased, hd] <;> rw [hd] at hk
    case driving.reject.none => cases hk; exact l.stopped_line dead .reject
    all_goals exact hk

/-- An inspection reset lets the driver go unless the gate is held (R122). -/
theorem Line.turns_inspectionReset (l : Line) : l.Turns l.inspectionReset := by
  have cleared : l.Turns { l with queue := [], lateNote := none } := .of_same rfl rfl rfl rfl
  unfold Line.inspectionReset
  simp only
  split
  · exact cleared
  · next hm => exact cleared.trans (Line.turns_letGo hm)

/-- Time counts down what is left of DEAD (R112). -/
theorem Block.turns_elapse (b : Block) (n : Nat) : b.line.Turns (b.elapse n).line := by
  unfold Block.elapse
  simp only
  split
  · next line left p hd =>
    refine ⟨rfl, rfl, fun h => ?_, fun _ kind hk => by rw [hd] at hk; exact hk⟩
    have holds : (GateDriver.dead line (left - n) p).holdsGate = b.line.driver.holdsGate := by
      rw [hd]
      rcases p with _ | _ | _ <;> rfl
    exact ⟨by rw [holds]; exact h.held, nofun⟩
  · exact .refl _

/-! ### SET_LINE, and the end of DEAD -/

/-- SET_LINE makes no line active (R118, R191). -/
theorem Line.configured_drives {config : LineConfig} {gate : GateModeArg} {kind : GateLine}
    (h : (l.configured config gate).driver.drives kind = true) : l.driver.drives kind = true := by
  unfold Line.configured at h
  split at h
  · rw [Line.letGo_eq] at h
    exact absurd h (ne_true_of_eq_false ((Line.driverLetGo_free _).2 kind))
  · exact h
  · exact h

theorem Line.configured_holdSound (h : l.HoldSound) (config : LineConfig) (gate : GateModeArg) :
    (l.configured config gate).HoldSound := by
  unfold Line.configured
  split
  · rw [Line.letGo_eq]
    exact .of_free (by simp) (Line.driverLetGo_free _).1
  · next off => exact .of_free (by simp) (h.free (by rw [off]; nofun))
  · exact h.congr rfl rfl

/-- A pending hold goes on to hold the gate; a pending action, or none, leaves the driver free (R116). -/
theorem Line.endDead_holdSound {line : GateLine} {left : Nat} {p : Option Pending} (h : l.HoldSound)
    (hd : l.driver = .dead line left p) : (l.endDead p).HoldSound := by
  rcases p with _ | ⟨kind, endAt, owner⟩ | _
  · have other : l.gateMode ≠ .held := mt h.held.1 (by rw [hd]; nofun)
    exact .of_free other trivial
  · have other : l.gateMode ≠ .held := mt h.held.1 (by rw [hd]; nofun)
    rw [Line.endDead_action]
    exact .of_free other (l.driven_free kind endAt owner)
  · have held : l.gateMode = .held := h.held.2 (by rw [hd]; rfl)
    exact .of_holds held rfl

end Sys2Proof.Machine
end

section
/-! SUPPORT. The line over the shared operations and over every command, and the rules that follow for the position, the
gate lines and the hold (O45, O50, O53). -/

namespace Sys2Proof.Machine

variable (b : Block)

/-! ### Reports (R127, R134, R144) -/

theorem Block.turns_triggerHold : b.line.Turns b.triggerHold.line := by
  rw [Block.triggerHold_line]
  split
  · exact .refl _
  · exact b.line.turns_enterHeld

theorem Block.turns_containPort (i : PortId) : b.line.Turns (b.containPort i).line := by
  unfold Block.containPort
  split
  · exact .refl _
  · cases i
    · have closed : ((b.setPort .capture (b.port .capture).contain).closeFrame .truncated).line = b.line := by simp
      simp only [Block.askRewrite_frame]
      split
      · exact .trans (.of_eq closed) (Block.turns_triggerHold _)
      · exact .of_eq closed
    · exact .of_eq (by simp)

theorem Block.turns_followReport (e : LoggedError) : b.line.Turns (b.followReport e).line := by
  unfold Block.followReport
  split
  · exact Block.turns_containPort _ _
  · exact Block.turns_containPort _ _
  · split
    · exact Block.turns_containPort _ _
    · exact .refl _
  · split
    · exact Block.turns_containPort _ _
    · exact .refl _
  · exact Block.turns_triggerHold _
  · split
    · exact Block.turns_triggerHold _
    · exact .refl _
  · split
    · exact Block.turns_triggerHold _
    · exact .refl _
  · exact .refl _

theorem Block.turns_report (e : LoggedError) : b.line.Turns (b.report e).line := by
  have logged : b.line.Turns (b.logError e).line := .of_eq (by simp)
  exact logged.trans (Block.turns_followReport _ e)

/-- A report after a change of other parts than the line. -/
theorem Block.turns_report_of {c : Block} (h : c.line = b.line) (e : LoggedError) : b.line.Turns (c.report e).line :=
  h ▸ c.turns_report e

/-! ### Ports (R129, R130, R146, R148) -/

theorem Block.turns_writeRequest (i : PortId) (r : Request) : b.line.Turns (b.writeRequest i r).line := by
  unfold Block.writeRequest
  split_ifs
  · exact .of_eq (by simp [Block.takeWrite])
  · exact b.turns_report_of (by simp) _
  · exact .refl _

theorem Block.turns_readRequest (i : PortId) (r : Request) : b.line.Turns (b.readRequest i r).line := by
  unfold Block.readRequest
  split_ifs
  · unfold Block.takeRead
    simp only
    split <;> exact .of_eq (by simp)
  · exact b.turns_report_of (by simp) _
  · exact .refl _

theorem Block.turns_writeBeat (i : PortId) (x : WriteBeat) : b.line.Turns (b.writeBeat i x).line := by
  unfold Block.writeBeat
  split
  · exact .refl _
  · split
    · exact .refl _
    · exact .of_eq (by simp)
    · simp only [Block.bufferedBeat, Block.lastBeat]
      split
      · exact .of_eq (by simp)
      · split
        · exact b.turns_report_of (by simp) _
        · exact .of_eq (by simp)

/-! ### The frame tracker (R23, R33, R41, R122) -/

theorem Block.turns_takeInspectionReset : b.line.Turns b.takeInspectionReset.line := by
  have line : b.takeInspectionReset.line = b.line.inspectionReset := by simp [Block.takeInspectionReset]
  exact line ▸ b.line.turns_inspectionReset

theorem Block.turns_burstOffer : b.line.Turns b.burstOffer.line := by
  unfold Block.burstOffer
  split
  · split
    · split
      · exact .of_eq (by simp)
      · exact .of_eq (by simp)
      · exact .of_eq (by simp)
      · rw [Block.takeBurst_line, Block.openFrame_eq]
        exact .of_same rfl rfl rfl rfl
    · exact .refl _
  · exact .refl _

theorem Block.handleSegment_line (p : Program) (u : Burst) (g : Segment) : (b.handleSegment p u g).line = b.line := by
  unfold Block.handleSegment
  split
  · rfl
  · split
    · rw [Block.orderBreak, Block.report_minor _ (.inr rfl)]
      simp
    · simp

theorem Block.reportLaneRange_line (u : Burst) : (b.reportLaneRange u).line = b.line := by
  unfold Block.reportLaneRange
  split
  · rw [Block.report_minor _ (.inl rfl)]
    simp
  · rfl

theorem Block.turns_segment : b.line.Turns b.segment.line := by
  have done : ∀ c : Block, c.line = b.line → b.line.Turns c.resetAfterSegment.line := fun c hc => by
    unfold Block.resetAfterSegment
    split
    · exact hc ▸ c.turns_takeInspectionReset
    · exact .of_eq hc
  unfold Block.segment
  split
  · simp only
    split
    · exact done _ (by rw [Block.setSegments_line, Block.reportLaneRange_line])
    · exact done _ (by rw [Block.setSegments_line, Block.handleSegment_line, Block.reportLaneRange_line])
  · exact .refl _

theorem Block.turns_finishBoard : b.line.Turns b.finishBoard.line := by
  unfold Block.finishBoard
  split
  · exact .refl _
  · simp only
    split
    · exact .of_same rfl rfl rfl rfl
    · exact .of_same rfl rfl rfl rfl

theorem Block.turns_closingWork : b.line.Turns b.closingWork.line := by
  unfold Block.closingWork
  split
  · have finished : b.line.Turns b.closeVerdicts.finishBoard.returnToIdle.line := by
      simpa using b.closeVerdicts.turns_finishBoard
    unfold Block.resetAfterClosing
    split
    · exact finished.trans (Block.turns_takeInspectionReset _)
    · exact finished
  · exact .refl _

/-! ### Samples of the line (R99 to R103, R109, R117) -/

theorem Block.turns_illegalSample (x : Bool × Bool) : b.line.Turns (b.illegalSample x).line := by
  have sampled : b.line.Turns (b.setSample x).line := .of_same rfl rfl rfl rfl
  exact sampled.trans (Block.turns_report _ _)

theorem Block.turns_illegalStep : b.line.Turns b.illegalStep.line := by
  unfold Block.illegalStep
  split
  · exact b.turns_illegalSample _
  · exact .refl _

theorem Block.turns_leadingEdge : b.line.Turns b.leadingEdge.line := by
  unfold Block.leadingEdge
  simp only
  split_ifs
  · exact .refl _
  · rw [Block.askRewrite_withLine]
    exact .of_same rfl rfl rfl rfl
  · have counted : b.line.Turns { b.line with untracked := min Config.untrackedMax (b.line.untracked + 1) } :=
      .of_same rfl rfl rfl rfl
    simp only [Block.askRewrite_frame]
    exact counted.trans (Block.turns_report { b with line := _ } _)

theorem Block.turns_edgeTo (high : Bool) : b.line.Turns (b.edgeTo high).line := by
  have settled : b.line.Turns (b.settleEdge high).line := .of_same rfl rfl rfl rfl
  unfold Block.edgeTo
  split
  · exact settled.trans (Block.turns_leadingEdge _)
  · exact settled

theorem Block.turns_edgeSample (high : Bool) : b.line.Turns (b.edgeSample high).line := by
  unfold Block.edgeSample
  split_ifs
  · exact .of_same rfl rfl rfl rfl
  · exact .of_same rfl rfl rfl rfl
  · exact b.turns_edgeTo high

theorem Block.turns_boardEdgeLeading : b.line.Turns b.boardEdgeLeading.line := by
  unfold Block.boardEdgeLeading
  split
  · exact .refl _
  · exact b.turns_edgeTo _

theorem Block.turns_boardEdgeTrailing : b.line.Turns b.boardEdgeTrailing.line := by
  unfold Block.boardEdgeTrailing
  split
  · exact b.turns_edgeTo _
  · exact .refl _

theorem Block.turns_dueAction (x : Board) : b.line.Turns (b.dueAction x).line := by
  unfold Block.dueAction
  split
  · exact b.line.turns_gateAction _ x
  · refine (b.line.turns_gateAction .reject x).trans (.trans ?_ (Block.turns_report _ _))
    exact .of_same rfl rfl rfl rfl
  · exact b.line.turns_gateAction .reject x

theorem Block.turns_dueBoards (n : Nat) : b.line.Turns (Block.dueBoards n b).line := by
  induction n generalizing b with
  | zero => exact .refl _
  | succ n ih =>
    unfold Block.dueBoards
    split
    · exact .refl _
    · next x rest _ =>
      split
      · refine (b.turns_dueAction x).trans (.trans ?_ (ih _))
        rw [Block.askRewrite_withLine]
        exact .of_same rfl rfl rfl rfl
      · exact .refl _

theorem Block.turns_positionChanged : b.line.Turns b.positionChanged.line := by
  have tested : ∀ c : Block, c.line.Turns c.timeoutTest.line := fun c => by
    unfold Block.timeoutTest
    simp only
    split
    · simp only [Block.closeFrame_frame]
      exact c.turns_report _
    · exact .refl _
  exact (b.line.turns_windowEnd.trans
    (Block.turns_dueBoards { b with line := b.line.windowEnd } _)).trans (tested _)

/-- A legal step goes up or down by 1 under NORMAL (R99). -/
theorem stepUnderNormal_unit {last x : Bool × Bool} {d : Int} (h : stepUnderNormal last x = some d) :
    d = 1 ∨ d = -1 := by
  unfold stepUnderNormal at h
  split at h <;> cases h <;> decide

/-- Under either direction sense a legal step moves the position by 1 (R99). -/
theorem position_unit (p : Position) (sense : Sense) {d : Int} (h : d = 1 ∨ d = -1) :
    p + BitVec.ofInt 32 (sense.apply d) = p + 1 ∨ p + BitVec.ofInt 32 (sense.apply d) = p - 1 := by
  have step := position_step p sense (d = 1)
  have sign : (if d = 1 then (1 : Int) else -1) = d := by rcases h with rfl | rfl <;> rfl
  rw [sign] at step
  rw [step]
  split
  · exact .inl rfl
  · exact .inr rfl

/-- A sample of the encoder moves the position by 1 and acts on the line from there, or leaves the position (R99,
R100). -/
theorem Block.encoderSample_turns (x : Bool × Bool) : b.line.Turns (b.encoderSample x).line
    ∨ ∃ p, (p = b.line.position + 1 ∨ p = b.line.position - 1)
      ∧ ({ b.line with position := p } : Line).Turns (b.encoderSample x).line := by
  unfold Block.encoderSample
  split
  · exact .inl (.of_same rfl rfl rfl rfl)
  · split
    · exact .inl (.refl _)
    · split
      · next d hd =>
        refine .inr ⟨_, position_unit _ b.line.config.sense (stepUnderNormal_unit hd), ?_⟩
        have moved : ∀ p, Line.Turns { b.line with position := p } { (b.setSample x).line with position := p } :=
          fun _ => .of_same rfl rfl rfl rfl
        exact (moved _).trans (Block.turns_positionChanged { b.setSample x with line := _ })
      · exact .inl (b.turns_illegalSample x)

/-! ### Owners of internal requests, and requests at memory (R157, R162) -/

theorem Block.fetchReadIssue_line : b.fetchReadIssue.line = b.line := by
  unfold Block.fetchReadIssue
  split
  · rfl
  · split_ifs <;> rfl

theorem Block.ringSlotWrite_line : b.ringSlotWrite.line = b.line := by
  unfold Block.ringSlotWrite
  split
  · rfl
  · split_ifs <;> rfl

theorem Block.handWaiter_line (w : Waiter) : (b.handWaiter w).line = b.line := by
  unfold Block.handWaiter
  split
  · split <;> rfl
  · split <;> rfl
  · rfl
  · rfl

theorem Block.internalHandover_line : b.internalHandover.line = b.line := by
  unfold Block.internalHandover
  induction b.master.waiters generalizing b with
  | nil => rfl
  | cons w rest ih =>
    unfold Block.drainWaiters
    simp only
    split
    · rw [ih, Block.handWaiter_line]
    · rfl

theorem Block.applyConsumer_line (u : ConsumerUpdate) : (b.applyConsumer u).line = b.line := by
  unfold Block.applyConsumer
  split
  · rfl
  · split
    · rfl
    · rw [Block.report_plain _ (Or.inr (Or.inr rfl))]
      simp only [Block.logError_frame]

theorem Block.takeConsumer_line (u : ConsumerUpdate) : (b.takeConsumer u).line = b.line := by
  unfold Block.takeConsumer
  split
  · rfl
  · rfl
  · exact b.applyConsumer_line u

theorem Block.endSlotWrite_line : b.endSlotWrite.line = b.line := by
  have held : ∀ c : Block, c.applyHeld.line = c.line := fun c => by
    unfold Block.applyHeld
    split
    · exact Block.applyConsumer_line _ _
    · rfl
  exact held { b with writer := { b.writer with slotWrite := none } }

theorem Block.ownerDone_line (o : EntryOwner) (data : List Beat) : (b.ownerDone o data).line = b.line := by
  unfold Block.ownerDone
  split
  · simp
  · unfold Block.slotDone
    split
    · rw [Block.endSlotWrite_line]
      simp
    · rfl
  · rfl

theorem Block.ownerFails_line (o : EntryOwner) : (b.ownerFails o).line = b.line := by
  unfold Block.ownerFails
  split
  · simp
  · unfold Block.slotFailed
    split
    · exact Block.endSlotWrite_line _
    · rfl
  · rfl

theorem Block.turns_memoryResponse (tag : Nat) (r : Response) (data : List Beat) :
    b.line.Turns (b.memoryResponse tag r data).line := by
  unfold Block.memoryResponse
  split
  · exact .refl _
  · unfold Block.route
    split
    · exact .of_eq (by simp)
    · exact b.turns_report_of (by simp) _
    · exact .of_eq (by rw [Block.ownerDone_line, Block.retire_line])
    · rw [Block.ownerFails_line]
      exact b.turns_report_of (by simp) _

theorem Block.turns_responseTimerExpiry (tag : Nat) : b.line.Turns (b.responseTimerExpiry tag).line := by
  unfold Block.responseTimerExpiry
  split
  · exact .refl _
  · next e _ =>
    have retired : b.line.Turns ((b.elapse e.timer).retire tag).line := b.turns_elapse e.timer
    unfold Block.timeOut
    simp only
    split
    · simp only [Block.answerPort_frame]
      exact retired.trans (Block.turns_report _ _)
    · exact (retired.trans (Block.turns_report _ _)).trans (.of_eq (Block.ownerFails_line _ _))

/-! ### The mailbox -/

/-- What the mailbox can do to the line: SET_LINE configures it; RELEASE_GATE and INSPECTION_RESET turn its gate, and
no other command changes it. -/
def Line.Commanded (l m : Line) : Prop := (∃ config gate, m = l.configured config gate) ∨ l.Turns m

theorem Block.decideCommand_line (kind : Nat) (inHand : Bool) :
    b.line.Commanded (b.decideCommand kind inHand).1.line := by
  unfold Block.decideCommand
  split
  · right
    unfold Block.loadProgram
    simp only
    split
    · exact .refl _
    · split
      · exact .refl _
      · exact .of_eq (by simp)
  · right
    unfold Block.abortLoad
    split
    · exact .of_eq (by simp)
    · exact .refl _
  · right
    unfold Block.setRing
    simp only
    split_ifs <;> exact .refl _
  · unfold Block.setLine
    split
    · exact .inr (.refl _)
    · next config gate _ =>
      split_ifs
      · exact .inr (.refl _)
      · exact .inr (.refl _)
      · left
        rcases b.setGateMode_configured config gate with h | h
        · exact ⟨config, gate, by rw [h]⟩
        · exact ⟨config, gate, by simp only [h, Block.askRewrite_frame]⟩
  · right
    unfold Block.setPortPolicy
    simp only
    split
    · split <;> exact .of_eq (by simp)
    · exact .refl _
  · right
    unfold Block.clearLog
    split <;> exact .refl _
  · right
    unfold Block.resumePort
    split
    · exact .refl _
    · split
      · exact .refl _
      · split
        · exact .refl _
        · exact .of_eq (by simp)
  · right
    unfold Block.releaseGate
    split
    · simp only [Block.askRewrite_frame]
      exact b.line.turns_release
    · exact .refl _
  · right
    unfold Block.inspectionReset
    split_ifs
    · exact .refl _
    · exact .refl _
    · exact b.turns_takeInspectionReset
  · exact .inr (.refl _)

theorem Block.decodeCopy_line (c : MailboxCopy) (inHand : Bool) :
    b.line.Commanded (b.decodeCopy c inHand).line := by
  have command : ∀ d : Block, d.line = b.line → b.line.Commanded (d.takeCommand inHand).line := fun d hd => by
    simpa only [Block.takeCommand, Block.recordCommand_frame, hd] using d.decideCommand_line d.decoder.kind inHand
  simp only [Block.decodeCopy]
  split_ifs
  · exact command _ (by rw [Block.takeConsumer_line, Block.mergeCopy_line])
  · exact .inr (.of_eq (by rw [Block.takeConsumer_line, Block.mergeCopy_line]))
  · exact command _ (b.mergeCopy_line c)
  · exact .inr (.of_eq (b.mergeCopy_line c))

/-- A grant reaches the line through a report, or through the mailbox decoder (R132, R163). -/
theorem Block.afterWrite_line (i : PortId) (w : BufferedWrite) (inHand : Bool) :
    b.line.Commanded (b.afterWrite i w inHand).line := by
  unfold Block.afterWrite
  split
  · split
    · exact .inr (b.turns_report _)
    · split
      · exact .inr (.refl _)
      · exact b.decodeCopy_line _ inHand
  · exact .inr (.refl _)

theorem Block.arbiterGrant_line (pick : Nat) (inHand : Bool) :
    b.line.Commanded (b.arbiterGrant pick inHand).line := by
  have written : ∀ i w tag, b.line.Commanded ((b.forwardWrite i w tag).afterWrite i w inHand).line := fun i w tag => by
    have sent : (b.forwardWrite i w tag).line = b.line := by simp [Block.forwardWrite]
    exact sent ▸ (b.forwardWrite i w tag).afterWrite_line i w inHand
  unfold Block.arbiterGrant
  split
  · unfold Block.grant
    split
    · exact written _ _ _
    · exact .inr (.of_eq (by simp [Block.forwardRead]))
    · exact .inr (.of_eq (by simp [Block.forwardInternal]))
  · exact .inr (.refl _)

/-! ### Every command -/

/-- What a command can do to the line: a full reset; the end of DEAD; a step of the encoder, which moves the position
by 1; or what the mailbox can do. -/
inductive Line.Next (l m : Line) : Instr → Prop
  | fullReset (kind straps contain) : m = { Line.fresh with driver := l.resetDriver } →
      Line.Next l m (.fullReset kind straps contain)
  | endsDead (line left p) : l.driver = .dead line left p → m = l.endDead p → Line.Next l m .deadTimeEnd
  | moves (x y p) : p = l.position + 1 ∨ p = l.position - 1 → ({ l with position := p } : Line).Turns m →
      Line.Next l m (.encoderStep x y)
  | configures (c config gate) : m = l.configured config gate → Line.Next l m c
  | turns (c) : l.Turns m → Line.Next l m c

theorem Line.Commanded.next {l m : Line} (h : l.Commanded m) (c : Instr) : l.Next m c := by
  rcases h with ⟨config, gate, h⟩ | h
  · exact .configures c config gate h
  · exact .turns c h

theorem exec_line {c : Instr} {s t : State} (h : exec c s = .next t) : s.block.line.Next t.block.line c := by
  have turns : ∀ f : Block → Block, s.onBlock f = .next t → s.block.line.Turns (f s.block).line →
      s.block.line.Next t.block.line c := fun f hf ht => .turns c (onBlock_block hf ▸ ht)
  have copied : ∀ copy inHand, (s.onBlock fun b => b.decodeCopy copy inHand) = .next t →
      s.block.line.Next t.block.line c := fun copy inHand hf =>
    (onBlock_block hf ▸ s.block.decodeCopy_line copy inHand : s.block.line.Commanded t.block.line).next c
  have command : ∀ {kind fields inHand}, (s.onBlock fun b => b.commandWrite kind fields inHand) = .next t →
      s.block.line.Next t.block.line c := fun hf => copied _ _ hf
  cases c with
  | fullReset kind straps contain =>
    cases h
    exact .fullReset kind straps contain rfl
  | deadTimeEnd =>
    cases h
    rcases hd : s.block.line.driver with _ | _ | ⟨line, left, p⟩
    · exact .turns _ (.of_eq (by simp only [Block.deadTimeEnd, hd]))
    · exact .turns _ (.of_eq (by simp only [Block.deadTimeEnd, hd]))
    · exact .endsDead line left p hd (by rw [Block.deadTimeEnd_eq hd])
  | encoderStep x y =>
    cases h
    rcases s.block.encoderSample_turns (x, y) with ht | ⟨p, hp, ht⟩
    · exact .turns _ ht
    · exact .moves x y p hp ht
  | arbiterGrant pick inHand =>
    cases h
    exact (s.block.arbiterGrant_line pick inHand).next _
  | writeRequest i r => exact turns (·.writeRequest i r) h (s.block.turns_writeRequest i r)
  | readRequest i r => exact turns (·.readRequest i r) h (s.block.turns_readRequest i r)
  | writeBeat i x => exact turns (·.writeBeat i x) h (s.block.turns_writeBeat i x)
  | burstOffer => exact turns Block.burstOffer h s.block.turns_burstOffer
  | segment => exact turns Block.segment h s.block.turns_segment
  | closing => exact turns Block.closingWork h s.block.turns_closingWork
  | illegalStep => exact turns Block.illegalStep h s.block.turns_illegalStep
  | boardEdgeTrailing => exact turns Block.boardEdgeTrailing h s.block.turns_boardEdgeTrailing
  | boardEdgeLeading => exact turns Block.boardEdgeLeading h s.block.turns_boardEdgeLeading
  | boardEdgeSample x => exact turns (·.edgeSample x) h (s.block.turns_edgeSample x)
  | memoryResponse tag r data => exact turns (·.memoryResponse tag r data) h (s.block.turns_memoryResponse tag r data)
  | responseTimerExpiry tag => exact turns (·.responseTimerExpiry tag) h (s.block.turns_responseTimerExpiry tag)
  | fetchReadIssue => exact turns Block.fetchReadIssue h (.of_eq s.block.fetchReadIssue_line)
  | ringSlotWrite => exact turns Block.ringSlotWrite h (.of_eq s.block.ringSlotWrite_line)
  | internalHandover => exact turns Block.internalHandover h (.of_eq s.block.internalHandover_line)
  | mailboxShadowWrite bytes => exact copied _ _ h
  | consumerUpdate m a bytes => exact copied _ _ h
  | loadProgram a => exact command h
  | abortLoad => exact command h
  | setRing a n i => exact command h
  | setLine a => exact command h
  | setPortPolicy i p f l => exact command h
  | clearLog n => exact command h
  | resumePort n => exact command h
  | releaseGate => exact command h
  | inspectionReset inHand => exact command h
  | unknownKind k => exact command h

/-! ### The position (O45) -/

theorem Line.configured_position (l : Line) (config : LineConfig) (gate : GateModeArg) :
    (l.configured config gate).position = l.position := by
  unfold Line.configured
  split
  · simp
  · rfl
  · rfl

/-- Settles O45: of what a command can do to the line, only a step of the encoder and a full reset move the position. -/
theorem positionMovesByEncoderStepsOnly : Obligations.PositionMovesByEncoderStepsOnly := by
  unfold Obligations.PositionMovesByEncoderStepsOnly
  intro c s t h
  cases exec_line h with
  | fullReset kind straps contain ht => exact .inr (.inr ⟨kind, straps, contain, rfl, by rw [ht]; rfl⟩)
  | endsDead line left p hd ht => exact .inl (by rw [ht]; simp)
  | moves x y p hp ht => exact .inr (.inl ⟨x, y, rfl, ht.position ▸ hp⟩)
  | configures _ config gate ht => exact .inl (by rw [ht, Line.configured_position])
  | turns _ ht => exact .inl ht.position

/-! ### The gate lines (O50) -/

/-- The other gate line. -/
def GateLine.other : GateLine → GateLine
  | .pass => .reject
  | .reject => .pass

theorem GateLine.eq_or_other (k l : GateLine) : l = k ∨ l = k.other := by cases k <;> cases l <;> decide

/-- While there is a dead time a line becomes active only from IDLE, from DEAD of the same line, or when DEAD ends
(R112). -/
theorem exec_activates {c : Instr} {s t : State} (h : exec c s = .next t) (dead : s.block.line.config.deadTime ≠ 0)
    {kind : GateLine} (active : t.block.line.driver.drives kind = true)
    (inactive : s.block.line.driver.drives kind = false) :
    s.block.line.driver = .idle ∨ (∃ left pending, s.block.line.driver = .dead kind left pending)
      ∨ ((∃ left pending, s.block.line.driver = .dead kind.other left pending) ∧ c = .deadTimeEnd) := by
  cases exec_line h with
  | fullReset _ _ _ ht =>
    have stopped : s.block.line.resetDriver.drives kind = false := by
      unfold Line.resetDriver
      split
      · rfl
      · split <;> rfl
      · rfl
    rw [ht] at active
    exact absurd active (ne_true_of_eq_false stopped)
  | endsDead line left p hd =>
    rcases kind.eq_or_other line with rfl | rfl
    · exact .inr (.inl ⟨left, p, hd⟩)
    · exact .inr (.inr ⟨⟨left, p, hd⟩, rfl⟩)
  | moves x y p hp ht => exact (ht.activates dead active inactive).imp_right .inl
  | configures _ config gate ht =>
    rw [ht] at active
    exact absurd (Line.configured_drives active) (ne_true_of_eq_false inactive)
  | turns _ ht => exact (ht.activates dead active inactive).imp_right .inl

/-- Settles O50. -/
theorem otherGateWaitsForTheDeadTime : Obligations.OtherGateWaitsForTheDeadTime := by
  unfold Obligations.OtherGateWaitsForTheDeadTime
  intro c s t h dead
  simp only [GateDriver.passGate_eq, GateDriver.rejectGate_eq]
  exact ⟨exec_activates (kind := .pass) h dead, exec_activates (kind := .reject) h dead⟩

/-! ### The hold (O53) -/

/-- A full reset leaves the gate mode OFF and the driver free (R121). -/
theorem Line.reset_holdSound (l : Line) : ({ Line.fresh with driver := l.resetDriver } : Line).HoldSound := by
  refine .of_free nofun ?_
  show l.resetDriver.Free
  unfold Line.resetDriver
  split
  · trivial
  · split <;> trivial
  · trivial

theorem exec_keeps_holdSound {c : Instr} {s t : State} (hs : s.block.line.HoldSound) (h : exec c s = .next t) :
    t.block.line.HoldSound := by
  cases exec_line h with
  | fullReset _ _ _ ht => exact ht ▸ s.block.line.reset_holdSound
  | endsDead _ _ _ hd ht => exact ht ▸ Line.endDead_holdSound hs hd
  | moves _ _ _ _ ht => exact ht.hold (hs.congr rfl rfl)
  | configures _ config gate ht => exact ht ▸ Line.configured_holdSound hs config gate
  | turns _ ht => exact ht.hold hs

/-- Settles O53: a command keeps the hold sound, and so does a tick. -/
theorem everyStepKeepsTheHoldSound : Obligations.EveryStepKeepsTheHoldSound := by
  unfold Obligations.EveryStepKeepsTheHoldSound
  intro s t hs h
  unfold step at h
  split at h
  · cases h
    exact (s.block.turns_elapse 1).hold hs
  · next rest _ => exact exec_keeps_holdSound (s := { s with pending := rest }) hs h

end Sys2Proof.Machine
end

section
/-! SUPPORT. A step on its queue of commands (O1), and what the block is after a full reset (O60). -/

namespace Sys2Proof.Machine

/-! ### A step (O1) -/

/-- Time counts a DEAD interval down, and leaves another driver (R112). -/
theorem Block.elapse_line (b : Block) (n : Nat) : (b.elapse n).line = { b.line with driver :=
    match b.line.driver with
    | .dead line left pending => .dead line (left - n) pending
    | d => d } := by
  unfold Block.elapse
  rcases hd : b.line.driver with _ | ⟨kind, endAt, owner⟩ | ⟨line, left, pending⟩
  · exact congrArg (fun d => { b.line with driver := d }) hd
  · exact congrArg (fun d => { b.line with driver := d }) hd
  · rfl

/-- Settles O1. -/
theorem stepRunsTheFrontCommand : Obligations.StepRunsTheFrontCommand := by
  unfold Obligations.StepRunsTheFrontCommand
  refine ⟨fun c rest s hp => by rw [step, hp], fun s hp => ⟨s.tick, by rw [step, hp], hp, ?_⟩⟩
  have line := s.block.elapse_line 1
  exact congrArg (fun l => { s.block.elapse 1 with line := l }) line

/-! ### Parts that hold nothing -/

/-- A writer without a ring (R167). -/
theorem RecordWriter.fresh_ringSound : RecordWriter.fresh.RingSound where
  unset _ := ⟨rfl, rfl, rfl⟩
  size := nofun
  occupancy := nofun
  room := nofun
  irq := ⟨nofun, fun ⟨_, hr, _⟩ => nomatch hr⟩

/-- A table without an entry (R158). -/
theorem MemoryPort.tableSound_of_empty {m : MemoryPort} (h : m.table = []) : m.TableSound where
  tags := by simp [h]
  distinct := by simp [h]
  writes := by simp [MemoryPort.outstanding, h]
  reads := by simp [MemoryPort.outstanding, h]
  internal := by simp [MemoryPort.outstanding, h]
  apart := by simp [h]

/-- Ports that hold nothing and wait for nothing (R133). -/
theorem Block.portsSound_of_empty {b : Block} (h : ∀ i, (b.port i).buffer = [] ∧ (b.port i).reads = []
    ∧ (b.port i).unanswered = []) : b.PortsSound := by
  have buffer := fun i => (h i).1
  have reads := fun i => (h i).2.1
  have unanswered := fun i => (h i).2.2
  refine ⟨?_, ?_, ?_, ?_, ?_, ?_, ?_, ?_⟩
  · simp [buffer]
  · simp [show b.capture.buffer = [] from buffer .capture]
  · simp [reads]
  · simp [buffer]
  · simp [unanswered]
  · simp [buffer, unanswered]
  · simp [unanswered]
  · simp [unanswered]

/-- Logs that hold no error (R123). -/
theorem ErrorLogs.fresh_sound : (⟨.fresh, .fresh, .fresh, .fresh⟩ : ErrorLogs).Sound where
  own src e h := by cases src <;> exact nomatch h
  clear src _ := by cases src <;> rfl

/-! ### The block after a full reset (O60) -/

section FullReset

variable (b : Block) (kind : FullResetKind) (mbxSel : BitVec 3) (imgContain : Bool)

/-- No buffer and no queue holds anything, but for the rewrite that the reset asks for (R196). -/
theorem Block.fullReset_countsBounded : (b.fullReset kind mbxSel imgContain).CountsBounded :=
  (Block.countsBounded_iff _).2 ⟨⟨Nat.zero_le _, Nat.zero_le _⟩, ⟨Nat.zero_le _, Nat.zero_le _⟩, Nat.one_le_ofNat,
    Nat.zero_le _, ⟨Nat.zero_le _, Nat.zero_le _, Nat.zero_le _, nofun⟩, ⟨Nat.zero_le _, Nat.zero_le _⟩,
    (by decide : 1 ≤ 2000), (by decide : 2000 ≤ 65535)⟩

/-- Empty banks and no ring (R4, R167). -/
theorem Block.fullReset_programsSound : (b.fullReset kind mbxSel imgContain).ProgramsSound where
  usable i p hi := by cases i <;> exact nomatch hi
  ring := nofun
  loads i l hi := by cases i <;> exact nomatch hi

end FullReset

/-- Settles O60. The block of power-on is what a POWER reset leaves of itself. -/
theorem resetMeetsEveryInvariant : Obligations.ResetMeetsEveryInvariant := by
  unfold Obligations.ResetMeetsEveryInvariant
  intro sound
  have afterReset : ∀ b kind mbxSel imgContain, sound (Block.fullReset b kind mbxSel imgContain) :=
    fun b kind mbxSel imgContain =>
      ⟨b.fullReset_countsBounded kind mbxSel imgContain, RecordWriter.fresh_ringSound, b.line.reset_holdSound,
        MemoryPort.tableSound_of_empty rfl, b.fullReset_frameSound kind mbxSel imgContain, .of_empty rfl,
        Block.portsSound_of_empty (fun i => by cases i <;> exact ⟨rfl, rfl, rfl⟩),
        b.fullReset_programsSound kind mbxSel imgContain, ErrorLogs.fresh_sound⟩
  exact ⟨fun s kind mbxSel imgContain => ⟨_, rfl, afterReset s.block kind mbxSel imgContain⟩,
    afterReset State.reset.block .power 0 false, rfl⟩

end Sys2Proof.Machine
end

section
/-! SUPPORT. What sound ports are, port by port: the writes of a buffer, the requests not yet answered, and the reads
(R130, R134, R135, R149, R150; O57). -/

namespace Sys2Proof.Machine

/-! ### The parts of a sound port -/

/-- What a write of a buffer keeps to wherever it stands there. -/
structure BufferedWrite.Fits (i : PortId) (c : Containment) (window : Range) (w : BufferedWrite) : Prop where
  taking : w.state = .taking ↔ w.taken.length < beatCount w.beats
  whole : w.taken.length ≤ beatCount w.beats
  heldPort : w.state = .held → i = .capture
  inspectedReady : w.inspected = true → i = .capture ∧ w.state = .ready
  doomed : w.doomed = true → w.state = .taking
  marked : w.state ≠ .taking → w.taken.any (·.bad) = true → w.policy = .mark
  contained : c = .contained → w.doomed = true ∨ w.inspected = true
    ∨ (i = .system ∧ (byteRange w.addr w.beats).within window = true)

/-- The writes of a buffer, none READY or HELD behind the head, with distinct numbers below `n`. -/
structure WritesSound (i : PortId) (c : Containment) (window : Range) (n : Nat) (l : List BufferedWrite) : Prop where
  fits : ∀ w ∈ l, w.Fits i c window
  behind : ∀ w ∈ l.tail, w.state = .taking ∨ w.state = .waiting
  stamps : (l.map (·.stamp)).Nodup
  fresh : ∀ w ∈ l, w.stamp < n

/-- At the system port no whole write waits at the head (R150). -/
def HeadSettled (i : PortId) (l : List BufferedWrite) : Prop := i = .system → ∀ w ∈ l.head?, w.state ≠ .waiting

/-- The requests not yet answered, with distinct numbers below `n`: a decided answer is of its request's kind, and the
first request of each kind is undecided (R149). -/
structure RequestsSound (n : Nat) (l : List OpenRequest) : Prop where
  stamps : (l.map (·.stamp)).Nodup
  fresh : ∀ q ∈ l, q.stamp < n
  own : ∀ q ∈ l, ∀ a, q.decided = some a → a.master = q.master ∧ a.direction = q.direction
  waits : ∀ master dir q, l.find? (·.sameKind master dir) = some q → q.decided = none

/-- A port that keeps to R130, R134, R135, R149 and R150. -/
structure Port.Sound (i : PortId) (window : Range) (n : Nat) (p : Port) : Prop where
  writes : WritesSound i p.containment window n p.buffer
  settled : HeadSettled i p.buffer
  requests : RequestsSound n p.unanswered
  noReads : p.containment = .contained → p.reads = []

/-- A decided request waits behind an undecided one of its kind exactly when the first of each kind is undecided. -/
theorem waits_iff_first_undecided (l : List OpenRequest) :
    (∀ k (h : k < l.length), l[k].decided ≠ none → ∃ j, ∃ hj : j < k, l[j].decided = none
      ∧ l[j].master = l[k].master ∧ l[j].direction = l[k].direction)
    ↔ ∀ master dir q, l.find? (·.sameKind master dir) = some q → q.decided = none := by
  constructor
  · intro waits master dir q hq
    obtain ⟨kind, k, hk, rfl, first⟩ := List.find?_eq_some_iff_getElem.1 hq
    by_contra decided
    obtain ⟨j, hj, -, hm, hd⟩ := waits k hk decided
    have other := first j hj
    simp only [OpenRequest.sameKind, hm, hd] at other kind
    simp [kind] at other
  · intro first k hk decided
    have found : (l.find? (·.sameKind l[k].master l[k].direction)).isSome :=
      List.find?_isSome.2 ⟨l[k], List.getElem_mem hk, by simp [OpenRequest.sameKind]⟩
    obtain ⟨q, hq⟩ := Option.isSome_iff_exists.1 found
    have undecided := first _ _ q hq
    obtain ⟨kind, j, hj, rfl, before⟩ := List.find?_eq_some_iff_getElem.1 hq
    obtain ⟨hm, hd⟩ := (OpenRequest.sameKind_iff _ _ _).1 kind
    have le : j ≤ k := by
      by_contra later
      simpa [OpenRequest.sameKind] using before k (not_le.1 later)
    have ne : j ≠ k := by
      rintro rfl
      exact decided undecided
    exact ⟨j, lt_of_le_of_ne le ne, undecided, hm, hd⟩

theorem Block.PortsSound.port {b : Block} (h : b.PortsSound) (i : PortId) :
    (b.port i).Sound i b.decoder.window b.stamp where
  writes :=
    { fits := fun w hw => by
        obtain ⟨k, hk, rfl⟩ := List.getElem_of_mem hw
        have s := h.writes i k hk
        exact ⟨s.taking, s.whole, s.heldPort, s.inspectedReady, s.doomed, s.marked, s.contained⟩
      behind := fun w hw => by
        obtain ⟨k, hk, rfl⟩ := List.getElem_of_mem hw
        rw [List.getElem_tail]
        have len : k + 1 < (b.port i).buffer.length := by simpa [Nat.lt_sub_iff_add_lt] using hk
        have front := (h.writes i (k + 1) len).front
        rcases hs : ((b.port i).buffer[k + 1]).state with _ | _ | _ | _
        · exact .inl rfl
        · exact .inr rfl
        · exact absurd (front (.inr hs)) (by simp)
        · exact absurd (front (.inl hs)) (by simp)
      stamps := h.bufferStamps i
      fresh := (h.fresh i).1 }
  settled := fun hi w hw => by
    have hlen : 0 < (b.port i).buffer.length := List.length_pos_of_mem (List.mem_of_mem_head? hw)
    rw [List.head?_eq_getElem?, List.getElem?_eq_getElem hlen] at hw
    cases hw
    exact (h.writes i 0 hlen).settled hi rfl
  requests := ⟨h.openStamps i, (h.fresh i).2, h.own i, (waits_iff_first_undecided _).1 (h.waits i)⟩
  noReads := h.noReads i

/-- Ports are sound when each is, and no write is HELD in an OPEN frame. -/
theorem Block.portsSound_iff (b : Block) : b.PortsSound ↔
    (∀ i, (b.port i).Sound i b.decoder.window b.stamp)
      ∧ ∀ w ∈ b.capture.buffer, w.state = .held → b.tracker.state ≠ .opened := by
  refine ⟨fun h => ⟨h.port, h.held⟩, fun ⟨h, held⟩ => ⟨fun i k hk => ?_, held, fun i => (h i).noReads,
    fun i => (h i).writes.stamps, fun i => (h i).requests.stamps,
    fun i => ⟨(h i).writes.fresh, (h i).requests.fresh⟩, fun i => (h i).requests.own,
    fun i => (waits_iff_first_undecided _).2 (h i).requests.waits⟩⟩
  obtain ⟨writes, settled, -, -⟩ := h i
  have f := writes.fits _ (List.getElem_mem hk)
  refine ⟨f.taking, f.whole, fun front => ?_, fun hi head => ?_, f.heldPort, f.inspectedReady, f.doomed, f.marked,
    f.contained⟩
  · cases k with
    | zero => rfl
    | succ k =>
      have tail : k < (b.port i).buffer.tail.length := by simpa [Nat.lt_sub_iff_add_lt] using hk
      have := writes.behind _ (List.getElem_mem tail)
      rw [List.getElem_tail] at this
      rcases this with this | this <;> rw [this] at front <;> simp at front
  · obtain rfl : k = 0 := by simpa using head
    exact settled hi _ (by rw [List.head?_eq_getElem?, List.getElem?_eq_getElem hk]; rfl)

/-! ### Requests and answers (R149) -/

/-- After a release the first request of the kind is undecided. -/
theorem releaseAnswers_first (master : MasterId) (dir : Direction) (l : List OpenRequest) (q : OpenRequest)
    (h : (releaseAnswers master dir l).1.find? (·.sameKind master dir) = some q) : q.decided = none := by
  induction l with
  | nil => cases h
  | cons r l ih =>
    unfold releaseAnswers at h
    split_ifs at h with kind
    · have kind := (r.sameKind_iff _ _).2 kind
      split at h
      · exact ih h
      · next undecided =>
        rw [List.find?_cons_of_pos (p := fun q : OpenRequest => q.sameKind master dir) kind] at h
        exact Option.some.inj h ▸ undecided
    · have kind := mt (r.sameKind_iff _ _).1 kind
      rw [List.find?_cons_of_neg (p := fun q : OpenRequest => q.sameKind master dir) kind] at h
      exact ih h

/-- A release leaves the first request of any other kind. -/
theorem releaseAnswers_first_other (master m : MasterId) (dir d : Direction) (hk : ¬ (m = master ∧ d = dir))
    (l : List OpenRequest) :
    (releaseAnswers master dir l).1.find? (·.sameKind m d) = l.find? (·.sameKind m d) := by
  induction l with
  | nil => rfl
  | cons r l ih =>
    unfold releaseAnswers
    split_ifs with kind
    · split
      · have other : ¬ r.sameKind m d = true := fun same => by
          obtain ⟨rfl, rfl⟩ := (r.sameKind_iff _ _).1 same
          exact hk kind
        rw [ih, List.find?_cons_of_neg (p := fun q : OpenRequest => q.sameKind m d) other]
      · rfl
    · rw [List.find?_cons, List.find?_cons, ih]

/-- The request of a number with its answer decided. -/
def OpenRequest.decide (stamp : Nat) (resp : Response) (data : List Beat) (q : OpenRequest) : OpenRequest :=
  if q.stamp = stamp then { q with decided := some ⟨q.master, q.direction, resp, data⟩ } else q

namespace RequestsSound

variable {n : Nat} {l : List OpenRequest}

theorem mono (h : RequestsSound n l) {m : Nat} (hm : n ≤ m) : RequestsSound m l :=
  ⟨h.stamps, fun q hq => (h.fresh q hq).trans_le hm, h.own, h.waits⟩

/-- A request just taken joins the end, undecided. -/
theorem joins (h : RequestsSound n l) (master : MasterId) (dir : Direction) (place : Bool) :
    RequestsSound (n + 1) (l ++ [⟨n, master, dir, place, none⟩]) where
  stamps := by
    rw [List.map_append, List.nodup_append]
    refine ⟨h.stamps, by simp, fun a ha c hc => ?_⟩
    obtain ⟨q, hq, rfl⟩ := List.mem_map.1 ha
    have := h.fresh q hq
    simp only [List.map_cons, List.map_nil, List.mem_singleton] at hc
    omega
  fresh q hq := by
    rcases List.mem_append.1 hq with hq | hq
    · exact (h.fresh q hq).trans n.lt_succ_self
    · rw [List.mem_singleton.1 hq]
      exact n.lt_succ_self
  own q hq a ha := by
    rcases List.mem_append.1 hq with hq | hq
    · exact h.own q hq a ha
    · rw [List.mem_singleton.1 hq] at ha
      cases ha
  waits m d q hq := by
    rw [List.find?_append, Option.or_eq_some_iff] at hq
    rcases hq with hq | ⟨-, hq⟩
    · exact h.waits m d q hq
    · rw [List.mem_singleton.1 (List.mem_of_find?_eq_some hq)]

/-- Deciding an answer and releasing those of its kind (R149). -/
theorem release (h : RequestsSound n l) {r : OpenRequest} (hr : r ∈ l) (resp : Response) (data : List Beat) :
    RequestsSound n (releaseAnswers r.master r.direction (l.map (OpenRequest.decide r.stamp resp data))).1 := by
  have stamp : ∀ q, (OpenRequest.decide r.stamp resp data q).stamp = q.stamp := fun q => by
    unfold OpenRequest.decide; split <;> rfl
  have kind : ∀ m d, (fun q : OpenRequest => q.sameKind m d) ∘ OpenRequest.decide r.stamp resp data
      = fun q => q.sameKind m d := fun m d => by
    funext q; simp only [Function.comp, OpenRequest.decide]; split <;> rfl
  have sub := releaseAnswers_sublist r.master r.direction (l.map (OpenRequest.decide r.stamp resp data))
  refine ⟨(sub.map _).nodup ?_, fun q hq => ?_, fun q hq a ha => ?_, fun m d q hq => ?_⟩
  · simpa only [List.map_map, Function.comp_def, stamp] using h.stamps
  · obtain ⟨x, hx, rfl⟩ := List.mem_map.1 (sub.subset hq)
    exact stamp x ▸ h.fresh x hx
  · obtain ⟨x, hx, rfl⟩ := List.mem_map.1 (sub.subset hq)
    unfold OpenRequest.decide at ha ⊢
    split at ha
    · next hs =>
      rw [if_pos hs]
      cases ha
      exact ⟨rfl, rfl⟩
    · next hs =>
      rw [if_neg hs]
      exact h.own x hx a ha
  · by_cases same : m = r.master ∧ d = r.direction
    · obtain ⟨rfl, rfl⟩ := same
      exact releaseAnswers_first _ _ _ q hq
    · rw [releaseAnswers_first_other _ _ _ _ same, List.find?_map, kind] at hq
      obtain ⟨x, hx, rfl⟩ := Option.map_eq_some_iff.1 hq
      have other : x.stamp ≠ r.stamp := fun hs => by
        obtain rfl := List.inj_on_of_nodup_map h.stamps (List.mem_of_find?_eq_some hx) hr hs
        obtain ⟨hm, hd⟩ := (x.sameKind_iff m d).1
          (List.find?_some (p := fun q : OpenRequest => q.sameKind m d) hx)
        exact same ⟨hm.symm, hd.symm⟩
      rw [OpenRequest.decide, if_neg other]
      exact h.waits m d x hx

end RequestsSound

/-! ### The writes of a buffer (R130, R134, R135, R150) -/

/-- A write of an OPEN port keeps to less. -/
theorem BufferedWrite.Fits.resumed {i : PortId} {c : Containment} {window : Range} {w : BufferedWrite}
    (h : w.Fits i c window) : w.Fits i .opened window :=
  ⟨h.taking, h.whole, h.heldPort, h.inspectedReady, h.doomed, h.marked, nofun⟩

namespace WritesSound

variable {i : PortId} {c : Containment} {window : Range} {n : Nat} {l : List BufferedWrite}

theorem mono (h : WritesSound i c window n l) {m : Nat} (hm : n ≤ m) : WritesSound i c window m l :=
  ⟨h.fits, h.behind, h.stamps, fun w hw => (h.fresh w hw).trans_le hm⟩

theorem resumed (h : WritesSound i c window n l) : WritesSound i .opened window n l :=
  ⟨fun w hw => (h.fits w hw).resumed, h.behind, h.stamps, h.fresh⟩

theorem of_sublist (h : WritesSound i c window n l) {m : List BufferedWrite} (hm : m.Sublist l) :
    WritesSound i c window n m :=
  ⟨fun w hw => h.fits w (hm.subset hw), fun w hw => h.behind w (hm.tail.subset hw), (hm.map _).nodup h.stamps,
    fun w hw => h.fresh w (hm.subset hw)⟩

/-- A write just taken joins the end, taking its beats. -/
theorem joins (h : WritesSound i c window n l) {w : BufferedWrite} (hs : w.stamp = n) (ht : w.state = .taking)
    (hw : w.Fits i c window) : WritesSound i c window (n + 1) (l ++ [w]) where
  fits v hv := by
    rcases List.mem_append.1 hv with hv | hv
    · exact h.fits v hv
    · exact List.mem_singleton.1 hv ▸ hw
  behind v hv := by
    cases l with
    | nil => cases hv
    | cons x l =>
      rcases List.mem_append.1 hv with hv | hv
      · exact h.behind v hv
      · exact .inl (List.mem_singleton.1 hv ▸ ht)
  stamps := by
    rw [List.map_append, List.nodup_append]
    refine ⟨h.stamps, by simp, fun a ha x hx => ?_⟩
    obtain ⟨v, hv, rfl⟩ := List.mem_map.1 ha
    have := h.fresh v hv
    simp only [List.map_cons, List.map_nil, List.mem_singleton] at hx
    omega
  fresh v hv := by
    rcases List.mem_append.1 hv with hv | hv
    · exact (h.fresh v hv).trans n.lt_succ_self
    · rw [List.mem_singleton.1 hv, hs]
      exact n.lt_succ_self

/-- Changes of writes that keep their numbers, and make none READY or HELD. -/
theorem map (h : WritesSound i c window n l) {c' : Containment} {f : BufferedWrite → BufferedWrite}
    (stamp : ∀ w ∈ l, (f w).stamp = w.stamp) (fits : ∀ w ∈ l, (f w).Fits i c' window)
    (behind : ∀ w ∈ l, (f w).state = w.state ∨ (f w).state = .taking ∨ (f w).state = .waiting) :
    WritesSound i c' window n (l.map f) where
  fits v hv := by
    obtain ⟨w, hw, rfl⟩ := List.mem_map.1 hv
    exact fits w hw
  behind v hv := by
    rw [← List.map_tail] at hv
    obtain ⟨w, hw, rfl⟩ := List.mem_map.1 hv
    rcases behind w (List.mem_of_mem_tail hw) with hs | hs
    · exact hs ▸ h.behind w hw
    · exact hs
  stamps := by
    have same : l.map ((·.stamp) ∘ f) = l.map (·.stamp) := List.map_congr_left stamp
    rw [List.map_map, same]
    exact h.stamps
  fresh v hv := by
    obtain ⟨w, hw, rfl⟩ := List.mem_map.1 hv
    exact stamp w hw ▸ h.fresh w hw

/-- Another write at the head, of the same number. -/
theorem head {w v : BufferedWrite} {rest : List BufferedWrite} (h : WritesSound i c window n (w :: rest))
    (hs : v.stamp = w.stamp) (hv : v.Fits i c window) : WritesSound i c window n (v :: rest) where
  fits x hx := by
    rcases List.mem_cons.1 hx with rfl | hx
    · exact hv
    · exact h.fits x (List.mem_cons_of_mem _ hx)
  behind := h.behind
  stamps := by simpa [hs] using h.stamps
  fresh x hx := by
    rcases List.mem_cons.1 hx with rfl | hx
    · exact hs ▸ h.fresh w List.mem_cons_self
    · exact h.fresh x (List.mem_cons_of_mem _ hx)

end WritesSound

end Sys2Proof.Machine
end

section
/-! SUPPORT. The operations of a port keep it sound, and make no write HELD (R129 to R131, R134, R135, R146, R148 to
R150; O57). -/

namespace Sys2Proof.Machine

variable {i : PortId} {window : Range} {n : Nat} {p : Port}

/-! ### One write -/

namespace BufferedWrite.Fits

variable {c : Containment} {w : BufferedWrite}

/-- A whole write is answered by the frame tracker, or settles at the head (R25, R150). -/
theorem turned (h : w.Fits i c window) (whole : w.state ≠ .taking) {x : WriteState} {y : Bool} (hx : x ≠ .taking)
    (held : x = .held → i = .capture) (inspected : y = true → i = .capture ∧ x = .ready)
    (contained : c = .contained → w.inspected = true → y = true) :
    ({ w with state := x, inspected := y } : BufferedWrite).Fits i c window where
  taking := iff_of_false hx (mt h.taking.2 whole)
  whole := h.whole
  heldPort := held
  inspectedReady := inspected
  doomed hd := absurd (h.doomed hd) whole
  marked _ := h.marked whole
  contained hc := (h.contained hc).imp_right (Or.imp_left (contained hc))

/-- A write that lacks more beats takes one (R146). -/
theorem takes (h : w.Fits i c window) (taking : w.state = .taking) (t : TakenBeat)
    (lacks : w.taken.length + 1 < beatCount w.beats) :
    ({ w with taken := w.taken ++ [t] } : BufferedWrite).Fits i c window where
  taking := iff_of_true taking (by simpa using lacks)
  whole := by simpa using lacks.le
  heldPort := h.heldPort
  inspectedReady := h.inspectedReady
  doomed := h.doomed
  marked other := absurd taking other
  contained := h.contained

/-- A write that goes on takes its last beat (R130, R150). -/
theorem fills (h : w.Fits i c window) (taking : w.state = .taking) (t : TakenBeat)
    (last : ¬ w.taken.length + 1 < beatCount w.beats) (kept : w.doomed = false)
    (marked : (w.taken ++ [t]).any (·.bad) = true → w.policy = .mark) :
    ({ w with taken := w.taken ++ [t], state := .waiting } : BufferedWrite).Fits i c window where
  taking := iff_of_false (by simp) (by simpa using last)
  whole := by simpa using h.taking.1 taking
  heldPort := nofun
  inspectedReady hi := by simp [(h.inspectedReady hi).2] at taking
  doomed hd := by simp [kept] at hd
  marked _ := marked
  contained hc := h.contained hc

/-- What containment leaves of a write that it keeps (R134). -/
theorem doom (h : w.Fits i c window) (stays : (decide (w.state = .taking) || w.inspected) = true) :
    (if w.state = .taking then { w with doomed := true } else w).Fits i .contained window := by
  split
  · next taking =>
    exact ⟨h.taking, h.whole, h.heldPort, h.inspectedReady, fun _ => taking, h.marked, fun _ => .inl rfl⟩
  · next whole =>
    exact ⟨h.taking, h.whole, h.heldPort, h.inspectedReady, h.doomed, h.marked,
      fun _ => .inr (.inl (by simpa [whole] using stays))⟩

end BufferedWrite.Fits

/-! ### What an operation keeps -/

/-- Every HELD write of `q` stands for one of `p`. -/
def Port.HoldsNoMore (p q : Port) : Prop := ∀ w ∈ q.buffer, w.state = .held → ∃ v ∈ p.buffer, v.state = .held

/-- A port stays sound, and holds no more writes. -/
structure Port.StaysSound (i : PortId) (window : Range) (n m : Nat) (p q : Port) : Prop where
  sound : p.Sound i window n → q.Sound i window m
  held : p.HoldsNoMore q

theorem Port.HoldsNoMore.of_buffer {q : Port} (h : q.buffer = p.buffer) : p.HoldsNoMore q :=
  fun w hw hs => ⟨w, h ▸ hw, hs⟩

theorem Port.HoldsNoMore.of_subset {q : Port} (h : q.buffer ⊆ p.buffer) : p.HoldsNoMore q :=
  fun w hw hs => ⟨w, h hw, hs⟩

theorem Port.HoldsNoMore.trans {q r : Port} (h : p.HoldsNoMore q) (h' : q.HoldsNoMore r) : p.HoldsNoMore r :=
  fun w hw hs => by
    obtain ⟨v, hv, hs⟩ := h' w hw hs
    exact h v hv hs

theorem Port.HoldsNoMore.settleHead (i : PortId) (p : Port) : p.HoldsNoMore (p.settleHead i) := by
  intro w hw hs
  cases i with
  | capture => exact ⟨w, hw, hs⟩
  | system =>
    rw [Port.settleHead_system] at hw
    rcases hb : p.buffer with _ | ⟨x, rest⟩
    · simp [hb] at hw
    · rw [hb] at hw
      rcases List.mem_cons.1 hw with rfl | hw
      · split at hs
        · cases hs
        · exact ⟨x, List.mem_cons_self, hs⟩
      · exact ⟨w, List.mem_cons_of_mem _ hw, hs⟩

theorem Port.HoldsNoMore.setWrite (p : Port) {w : BufferedWrite} (hw : w.state ≠ .held) :
    p.HoldsNoMore (p.setWrite w) := by
  intro v hv hs
  obtain ⟨x, hx, rfl⟩ := List.mem_map.1 hv
  split at hs
  · exact absurd hs hw
  · exact ⟨x, hx, hs⟩

/-! ### Answers (R149) -/

theorem RequestsSound.answer (h : RequestsSound n p.unanswered) (stamp : Nat) (resp : Response) (data : List Beat) :
    RequestsSound n (p.answer stamp resp data).unanswered := by
  unfold Port.answer
  split
  · exact h
  · next r hr =>
    obtain rfl : r.stamp = stamp := by simpa using List.find?_some hr
    exact h.release (List.mem_of_find?_eq_some hr) resp data

namespace Port.Sound

theorem mono (h : p.Sound i window n) {m : Nat} (hm : n ≤ m) : p.Sound i window m :=
  ⟨h.writes.mono hm, h.settled, h.requests.mono hm, h.noReads⟩

theorem answer (h : p.Sound i window n) (stamp : Nat) (resp : Response) (data : List Beat) :
    (p.answer stamp resp data).Sound i window n :=
  ⟨by simpa using h.writes, by simpa using h.settled, h.requests.answer stamp resp data, by simpa using h.noReads⟩

/-- A port is sound once its head has settled (R150). -/
theorem of_settleHead (writes : WritesSound i p.containment window n p.buffer) (requests : RequestsSound n p.unanswered)
    (noReads : p.containment = .contained → p.reads = []) : (p.settleHead i).Sound i window n := by
  cases i with
  | capture => exact ⟨writes, nofun, requests, noReads⟩
  | system =>
    rw [Port.settleHead_system]
    rcases p with ⟨_ | ⟨w, rest⟩, _, _, _, _, _, _, _⟩
    · exact ⟨writes, by simp [HeadSettled], requests, noReads⟩
    · refine ⟨writes.head (by split <;> rfl) ?_, fun _ v hv => ?_, requests, noReads⟩
      · have fits := writes.fits w List.mem_cons_self
        split
        · next hw =>
          exact fits.turned (y := w.inspected) (by simp [hw]) (by simp) (by simp)
            (fun hi => ⟨(fits.inspectedReady hi).1, rfl⟩) fun _ => id
        · exact fits
      · cases hv
        split
        · simp
        · assumption

/-- A request just taken joins the requests not yet answered. -/
theorem openRequest (h : p.Sound i window n) (r : Request) (dir : Direction) (place : Bool) :
    (p.openRequest n r dir place).Sound i window (n + 1) :=
  ⟨h.writes.mono n.le_succ, h.settled, h.requests.joins _ _ _, h.noReads⟩

end Port.Sound

namespace Port.StaysSound

theorem answer (p : Port) (stamp : Nat) (resp : Response) (data : List Beat) :
    p.StaysSound i window n n (p.answer stamp resp data) :=
  ⟨fun h => h.answer stamp resp data, .of_buffer (by simp)⟩

/-! ### Requests (R129, R133, R135, R136, R148) -/

/-- A write just taken stands at the end of the buffer, to be discarded at a CONTAINED port unless it is exempt. -/
theorem takeWrite (p : Port) (r : Request) (doomed : Bool) (exempt : p.containment = .contained → doomed = false →
      i = .system ∧ (byteRange r.addr r.beats).within window = true) :
    p.StaysSound i window n (n + 1) { p.openRequest n r .write false with buffer := p.buffer ++
      [⟨n, r.master, r.addr, r.beats, p.policy, [], .taking, false, doomed⟩] } where
  sound h := by
    refine ⟨h.writes.joins rfl rfl ?_, fun hi w hw => ?_, (h.openRequest r .write false).requests, h.noReads⟩
    · refine ⟨iff_of_true rfl (Nat.succ_pos _), Nat.zero_le _, nofun, nofun, fun _ => rfl, fun ht => absurd rfl ht,
        fun hc => ?_⟩
      cases doomed with
      | true => exact .inl rfl
      | false => exact .inr (.inr (exempt hc rfl))
    · rcases hb : p.buffer with _ | ⟨x, rest⟩
      · simp only [hb, List.nil_append, List.head?_cons] at hw
        cases hw
        simp
      · exact h.settled hi w (by simpa [hb] using hw)
  held w hw hs := by
    rcases List.mem_append.1 hw with hw | hw
    · exact ⟨w, hw, hs⟩
    · rw [List.mem_singleton.1 hw] at hs
      cases hs

/-- A request whose parity failed is not buffered (R129). -/
theorem refuseWrite (p : Port) (r : Request) (failing : List FailedWrite) :
    p.StaysSound i window n (n + 1) { p.openRequest n r .write false with failing := failing } where
  sound h :=
    have opened := h.openRequest r .write false
    ⟨opened.writes, opened.settled, opened.requests, opened.noReads⟩
  held := .of_buffer rfl

/-- A read taken at an OPEN port is listed. -/
theorem takeRead (p : Port) (r : Request) (ho : p.containment = .opened) (reads : List ListedRead) :
    p.StaysSound i window n (n + 1) { p.openRequest n r .read true with reads := reads } where
  sound h :=
    have opened := h.openRequest r .read true
    ⟨opened.writes, opened.settled, opened.requests, fun hc => absurd (ho.symm.trans hc) (by simp)⟩
  held := .of_buffer rfl

/-- A read answered at once, or behind an earlier one. -/
theorem answeredRead (p : Port) (r : Request) (place : Bool) (stamp : Nat) (resp : Response) (data : List Beat) :
    p.StaysSound i window n (n + 1) ((p.openRequest n r .read place).answer stamp resp data) where
  sound h := (h.openRequest r .read place).answer stamp resp data
  held := .of_buffer (by simp [Port.openRequest])

/-! ### Beats (R129 to R131, R146, R150) -/

/-- A beat of a write whose request parity failed. -/
theorem failedBeat (p : Port) (w : FailedWrite) : p.StaysSound i window n n (p.failedBeat w) := by
  have unchanged : ∀ failing, p.StaysSound i window n n { p with failing := failing } := fun failing =>
    ⟨fun h => ⟨h.writes, h.settled, h.requests, h.noReads⟩, .of_buffer rfl⟩
  unfold Port.failedBeat
  split
  · exact ⟨fun h => ((unchanged _).sound h).answer _ _ _, .of_buffer (by simp)⟩
  · exact unchanged _

/-- A write of the buffer that is replaced by one still taking its beats. -/
theorem takesBeat {w : BufferedWrite} (taking : w.state = .taking)
    (hw : ∀ c, WritesSound i c window n p.buffer → w.Fits i c window) :
    p.StaysSound i window n n (p.setWrite w) where
  sound h := by
    refine ⟨h.writes.map (fun v _ => ?_) (fun v hv => ?_) (fun v _ => ?_), fun hi v hv => ?_, h.requests, h.noReads⟩
    · split
      · next hs => exact hs.symm
      · rfl
    · split
      · exact hw _ h.writes
      · exact h.writes.fits v hv
    · split
      · exact .inr (.inl taking)
      · exact .inl rfl
    · simp only [Port.setWrite, List.head?_map, Option.mem_def, Option.map_eq_some_iff] at hv
      obtain ⟨x, hx, rfl⟩ := hv
      split
      · simp [taking]
      · exact h.settled hi x hx
  held := .setWrite p (by simp [taking])

/-- A write of the buffer that has taken its last beat goes on. -/
theorem writeWaits {w : BufferedWrite}
    (hw : ∀ c, WritesSound i c window n p.buffer → ({ w with state := .waiting } : BufferedWrite).Fits i c window) :
    p.StaysSound i window n n (p.writeWaits i w) where
  sound h := by
    refine .of_settleHead (h.writes.map (fun v _ => ?_) (fun v hv => ?_) (fun v _ => ?_)) h.requests h.noReads
    · split
      · next hs => exact hs.symm
      · rfl
    · split
      · exact hw _ h.writes
      · exact h.writes.fits v hv
    · split
      · exact .inr (.inr rfl)
      · exact .inl rfl
  held := (Port.HoldsNoMore.setWrite p (by simp)).trans (.settleHead i _)

/-- A write discarded whole (R131, R134, R135). -/
theorem discardWrite (p : Port) (stamp : Nat) : p.StaysSound i window n n (p.discardWrite i stamp) where
  sound h := by
    refine .of_settleHead ?_ (RequestsSound.answer 
      (p := { p with buffer := p.buffer.filter fun v => v.stamp != stamp }) h.requests _ _ _) ?_
    · simpa using h.writes.of_sublist List.filter_sublist
    · simpa using h.noReads
  held := by
    refine .trans (.of_subset ?_) (.settleHead i _)
    simp

/-! ### Containment and resumption (R134, R137) -/

theorem contain (p : Port) : p.StaysSound i window n n p.contain where
  sound h := by
    obtain ⟨reads, containment, -, -, -, buffer⟩ := p.contain_result
    have discarded := List.foldlRecOn (motive := fun q : Port => RequestsSound n q.unanswered)
      (p.buffer.filter fun w => !w.staysOnContainment) (fun p w => p.answer w.stamp .okay [])
      (b := { p with
        buffer := (p.buffer.filter BufferedWrite.staysOnContainment).map fun w =>
          if w.state = .taking then { w with doomed := true } else w
        containment := .contained }) h.requests fun _ hq w _ => hq.answer w.stamp .okay []
    have requests : RequestsSound n p.contain.unanswered := by
      unfold Port.contain
      exact List.foldlRecOn (motive := fun q : Port => RequestsSound n q.unanswered) _ Port.failRead discarded
        fun _ hq r _ => hq.answer _ _ _
    have kept := h.writes.of_sublist (List.filter_sublist (p := fun w => decide (w.state = .taking) || w.inspected))
    refine ⟨?_, fun hi w hw => ?_, requests, fun _ => reads⟩
    · rw [containment, buffer]
      refine kept.map (fun w _ => by split <;> rfl) (fun w hw => ?_) fun w _ => .inl (by split <;> rfl)
      obtain ⟨hw, stays⟩ := List.mem_filter.1 hw
      exact (h.writes.fits w hw).doom stays
    · rw [buffer, List.head?_map] at hw
      obtain ⟨v, hv, rfl⟩ := Option.map_eq_some_iff.1 hw
      obtain ⟨hv, stays⟩ := List.mem_filter.1 (List.mem_of_mem_head? hv)
      have taking : v.state = .taking := by
        rcases Bool.or_eq_true_iff.1 stays with ht | inspected
        · exact of_decide_eq_true ht
        · exact absurd (hi.symm.trans ((h.writes.fits v hv).inspectedReady inspected).1) (by simp)
      simp [taking]
  held w hw hs := by
    obtain ⟨-, -, -, -, -, buffer⟩ := p.contain_result
    rw [buffer] at hw
    obtain ⟨v, hv, rfl⟩ := List.mem_map.1 hw
    refine ⟨v, (List.mem_filter.1 hv).1, ?_⟩
    split at hs
    · exact hs
    · exact hs

/-- A change of the settings, or the port OPEN again. -/
theorem settings (p : Port) (policy : Policy) (failResponse : FailResponse) (c : Containment)
    (hc : c = p.containment ∨ c = .opened) :
    p.StaysSound i window n n { p with policy := policy, failResponse := failResponse, containment := c } where
  sound h := by
    rcases hc with rfl | rfl
    · exact ⟨h.writes, h.settled, h.requests, h.noReads⟩
    · exact ⟨h.writes.resumed, h.settled, h.requests, nofun⟩
  held := .of_buffer rfl

/-! ### Requests sent to memory (R150, R151, R153) -/

/-- The head write leaves, and the one behind it settles. -/
theorem headLeaves (p : Port) :
    p.StaysSound i window n n (Port.settleHead i { p with buffer := p.buffer.tail }) where
  sound h := .of_settleHead (h.writes.of_sublist (List.tail_sublist _)) h.requests h.noReads
  held := .trans (.of_subset (List.tail_subset _)) (.settleHead i _)

/-- The head read leaves. -/
theorem readLeaves (p : Port) : p.StaysSound i window n n { p with reads := p.reads.tail } where
  sound h := ⟨h.writes, h.settled, h.requests, fun hc => by simp [h.noReads hc]⟩
  held := .of_buffer rfl

end Port.StaysSound

/-- The write that a beat joins stands in the buffer, taking its beats. -/
theorem Port.beatTarget_buffered {w : BufferedWrite} (h : p.beatTarget = some (.buffered w)) :
    w ∈ p.buffer ∧ w.state = .taking := by
  have found : p.buffer.find? (·.state == .taking) = some w := by
    unfold Port.beatTarget at h
    split at h
    · cases h
    · cases h
    · next hw => cases h; exact hw
    · next hw => split at h <;> cases h; exact hw
  exact ⟨List.mem_of_find?_eq_some found, by simpa using List.find?_some found⟩

end Sys2Proof.Machine
end

section
/-! SUPPORT. What a change keeps of the ports and of the error logs, and the shared operations under it: reports with
what follows them, containment, frame close (R125 to R127, R134, R144; O46, O57, O59). -/

namespace Sys2Proof.Machine

/-! ### The error logs (R123 to R125) -/

@[simp] theorem ErrorLogs.log_setLog (l : ErrorLogs) (src : LogSource) (x : ErrorLog) : (l.setLog src x).log src = x := by
  cases src <;> rfl

/-- Each log but the one replaced stays as it is. -/
theorem ErrorLogs.setLog_eq (l : ErrorLogs) (src : LogSource) (x : ErrorLog) : l.setLog src x =
    { capture := if src = .capture then x else l.capture
      system := if src = .system then x else l.system
      memory := if src = .memory then x else l.memory
      line := if src = .line then x else l.line } := by
  cases src <;> rfl

theorem ErrorLogs.log_setLog_other (l : ErrorLogs) {src s : LogSource} (h : s ≠ src) (x : ErrorLog) :
    (l.setLog src x).log s = l.log s := by
  rw [ErrorLogs.setLog_eq]
  cases s <;> simp [ErrorLogs.log, h.symm]

/-- A log that holds an error of its own with a severity of its code, or nothing with the flag clear (R123, R124). -/
structure ErrorLog.Sound (src : LogSource) (x : ErrorLog) : Prop where
  own : ∀ e, x.held = some e → e.code.source = src ∧ e.severity ∈ e.code.severities
  clear : x.held = none → x.overflow = false

theorem ErrorLogs.sound_iff (l : ErrorLogs) : l.Sound ↔ ∀ src, (l.log src).Sound src :=
  ⟨fun h src => ⟨h.own src, h.clear src⟩, fun h => ⟨fun src => (h src).own, fun src => (h src).clear⟩⟩

theorem ErrorLogs.Sound.setLog {l : ErrorLogs} (h : l.Sound) {src : LogSource} {x : ErrorLog} (hx : x.Sound src) :
    (l.setLog src x).Sound := by
  rw [ErrorLogs.sound_iff] at h ⊢
  intro s
  by_cases hs : s = src
  · rw [hs, ErrorLogs.log_setLog]
    exact hx
  · rw [l.log_setLog_other hs]
    exact h s

/-- A report makes one change at most, in the log of its code: it is taken, by an empty log or in place of a milder
error, or it sets the flag of a log that holds another (R125). -/
theorem Block.logError_logs (b : Block) (e : LoggedError) :
    (b.logError e).logs = b.logs
    ∨ ∃ x, (b.logError e).logs = b.logs.setLog e.code.source x
      ∧ ((x.held = some e ∧ (b.logs.log e.code.source).level ≤ e.severity.code)
        ∨ (x.held = (b.logs.log e.code.source).held ∧ x.held ≠ none)) := by
  rcases held : (b.logs.log e.code.source).held with _ | k
  · rw [Block.logError_takes held]
    exact .inr ⟨_, rfl, .inl ⟨rfl, by simp [ErrorLog.level, held]⟩⟩
  · by_cases severe : k.severity.code < e.severity.code
    · rw [Block.logError_replaces held severe]
      exact .inr ⟨_, rfl, .inl ⟨rfl, by simpa [ErrorLog.level, held] using severe.le⟩⟩
    · have mild := Nat.not_lt.1 severe
      rcases flag : (b.logs.log e.code.source).overflow with _ | _
      · rw [Block.logError_overflows held mild flag]
        exact .inr ⟨_, rfl, .inr ⟨rfl, by simp⟩⟩
      · rw [Block.logError_full held mild flag]
        exact .inl rfl

/-! ### What a change keeps -/

/-- Sound ports and sound logs stay sound. -/
structure Block.StaysSound (b t : Block) : Prop where
  ports : b.PortsSound → t.PortsSound
  logs : b.logs.Sound → t.logs.Sound

/-- Sound ports and sound logs stay sound, and the severity that a log holds does not decrease. -/
structure Block.Advances (b t : Block) : Prop extends b.StaysSound t where
  levels : ∀ src, (b.logs.log src).level ≤ (t.logs.log src).level

theorem Block.StaysSound.trans {b c t : Block} (h : b.StaysSound c) (h' : c.StaysSound t) : b.StaysSound t :=
  ⟨h'.ports ∘ h.ports, h'.logs ∘ h.logs⟩

theorem Block.Advances.refl (b : Block) : b.Advances b := ⟨⟨id, id⟩, fun _ => le_rfl⟩

theorem Block.Advances.trans {b c t : Block} (h : b.Advances c) (h' : c.Advances t) : b.Advances t :=
  ⟨h.toStaysSound.trans h'.toStaysSound, fun src => (h.levels src).trans (h'.levels src)⟩

theorem Block.Advances.after {b c t : Block} (h' : c.Advances t) (h : b.Advances c) : b.Advances t := h.trans h'

/-- A change that is made on a condition alone. -/
theorem Block.Advances.when {b t : Block} (h : b.Advances t) {p : Prop} [Decidable p] :
    b.Advances (if p then t else b) := by
  split
  · exact h
  · exact .refl b

section

variable {b t : Block}

/-- Ports are sound after a change of one of them that keeps it sound, with a frame OPEN only if it was. -/
theorem Block.PortsSound.of_port (h : b.PortsSound) (i : PortId)
    (hp : (b.port i).StaysSound i b.decoder.window b.stamp t.stamp (t.port i))
    (other : ∀ j, j ≠ i → t.port j = b.port j) (window : t.decoder.windowBase = b.decoder.windowBase)
    (stamp : b.stamp ≤ t.stamp) (frame : t.tracker.state = .opened → b.tracker.state = .opened) : t.PortsSound := by
  rw [Block.portsSound_iff] at h ⊢
  obtain ⟨sound, held⟩ := h
  refine ⟨fun j => ?_, fun w hw hs isOpen => ?_⟩
  · rw [Decoder.window_congr window]
    by_cases hj : j = i
    · exact hj ▸ hp.sound (sound i)
    · exact other j hj ▸ (sound j).mono stamp
  · have before : ∃ v ∈ b.capture.buffer, v.state = .held := by
      cases i with
      | capture => exact hp.held w hw hs
      | system =>
        have same : t.capture = b.capture := other .capture (by simp)
        exact ⟨w, same ▸ hw, hs⟩
    obtain ⟨v, hv, hs⟩ := before
    exact held v hv hs (frame isOpen)

theorem Block.Advances.of_port (i : PortId)
    (hp : (b.port i).StaysSound i b.decoder.window b.stamp t.stamp (t.port i))
    (other : ∀ j, j ≠ i → t.port j = b.port j) (logs : t.logs = b.logs)
    (window : t.decoder.windowBase = b.decoder.windowBase) (stamp : b.stamp ≤ t.stamp)
    (frame : t.tracker.state = .opened → b.tracker.state = .opened) : b.Advances t :=
  ⟨⟨fun h => h.of_port i hp other window stamp frame, logs ▸ id⟩, fun _ => logs ▸ le_rfl⟩

/-- Ports and logs are as they were, and so is the mailbox window; no frame has been opened. -/
structure Block.Beside (b t : Block) : Prop where
  capture : t.capture = b.capture
  system : t.system = b.system
  window : t.decoder.windowBase = b.decoder.windowBase
  stamp : b.stamp ≤ t.stamp
  frame : t.tracker.state = .opened → b.tracker.state = .opened

theorem Block.Beside.portsSound (h : b.Beside t) (hs : b.PortsSound) : t.PortsSound := by
  have port : ∀ i, t.port i = b.port i := fun i => by
    cases i
    · exact h.capture
    · exact h.system
  refine hs.of_port .capture ⟨fun hp => ?_, .of_buffer (by rw [port])⟩ (fun j _ => port j) h.window h.stamp h.frame
  rw [port]
  exact hp.mono h.stamp

theorem Block.Beside.advances (h : b.Beside t) (logs : t.logs = b.logs) : b.Advances t :=
  ⟨⟨h.portsSound, logs ▸ id⟩, fun _ => logs ▸ le_rfl⟩

/-- The parts of a block that its ports and logs rest on. -/
def Block.portParts (b : Block) : Port × Port × ErrorLogs × Addr × Nat × FrameState :=
  (b.capture, b.system, b.logs, b.decoder.windowBase, b.stamp, b.tracker.state)

theorem Block.Advances.of_same (h : t.portParts = b.portParts) : b.Advances t := by
  simp only [Block.portParts, Prod.mk.injEq] at h
  obtain ⟨capture, system, logs, window, stamp, frame⟩ := h
  exact (Block.Beside.mk capture system window stamp.ge fun hf => frame ▸ hf).advances logs

end

variable (b : Block)

/-- A port replaced leaves the other as it is. -/
theorem Block.setPort_other {i j : PortId} (h : j ≠ i) (p : Port) : (b.setPort i p).port j = b.port j := by
  cases i with
  | capture =>
    cases j with
    | capture => exact absurd rfl h
    | system => rfl
  | system =>
    cases j with
    | capture => rfl
    | system => exact absurd rfl h

theorem Block.advances_setPort (i : PortId) {p : Port}
    (hp : (b.port i).StaysSound i b.decoder.window b.stamp b.stamp p) : b.Advances (b.setPort i p) := by
  refine .of_port i ?_ (fun j hj => ?_) (by simp) (by simp) (by simp) (by simp)
  · simpa using hp
  · exact b.setPort_other hj p

/-- A request takes a number (log entry 14). -/
theorem Block.advances_takes (i : PortId) {p : Port}
    (hp : (b.port i).StaysSound i b.decoder.window b.stamp (b.stamp + 1) p) : b.Advances (b.setPort i p).nextStamp := by
  have port : ∀ c : Block, c.nextStamp.port = c.port := fun _ => by funext j; cases j <;> rfl
  have stamp : (b.setPort i p).nextStamp.stamp = b.stamp + 1 := by simp [Block.nextStamp]
  refine .of_port i ?_ (fun j hj => ?_) (by simp) (by simp) (by simp [stamp]) (by simp)
  · simpa [port, stamp] using hp
  · exact (congrFun (port _) j).trans (b.setPort_other hj p)

/-! ### Status rewrites (R194) -/

theorem Block.stamp_le_askRewrite : b.stamp ≤ b.askRewrite.stamp := by
  rcases b.askRewrite_cases with ⟨h, -⟩ | ⟨h, -⟩ | ⟨h, -⟩ <;> rw [h]
  · exact Nat.le_succ _
  · exact le_rfl

theorem Block.beside_askRewrite : b.Beside b.askRewrite :=
  ⟨by simp, by simp, by simp, b.stamp_le_askRewrite, by simp⟩

theorem Block.advances_askRewrite : b.Advances b.askRewrite := b.beside_askRewrite.advances (by simp)

/-! ### Reports and what follows them (R125 to R127, R134, R144) -/

theorem Block.stamp_le_logError (e : LoggedError) : b.stamp ≤ (b.logError e).stamp := by
  have asked : ∀ c : Block, c.stamp = b.stamp → b.stamp ≤ c.askRewrite.stamp := fun c hc => hc ▸ c.stamp_le_askRewrite
  unfold Block.logError
  simp only
  split
  · exact asked _ rfl
  · exact asked _ rfl
  · exact asked _ rfl
  · exact le_rfl

/-- A report of an error with a severity of its code. -/
theorem Block.advances_logError {e : LoggedError} (he : e.severity ∈ e.code.severities) : b.Advances (b.logError e) := by
  have beside : b.Beside (b.logError e) := ⟨by simp, by simp, by simp, b.stamp_le_logError e, by simp⟩
  rcases b.logError_logs e with same | ⟨x, logs, hx⟩
  · exact beside.advances same
  refine ⟨⟨beside.portsSound, fun hs => ?_⟩, fun src => ?_⟩
  · rw [logs]
    refine hs.setLog ?_
    rcases hx with ⟨taken, -⟩ | ⟨kept, ne⟩
    · exact ⟨fun k hk => Option.some.inj (taken.symm.trans hk) ▸ ⟨rfl, he⟩, fun hn => by simp [taken] at hn⟩
    · exact ⟨fun k hk => hs.own _ k (kept ▸ hk), fun hn => absurd hn ne⟩
  · rw [logs]
    by_cases hsrc : src = e.code.source
    · rw [hsrc, ErrorLogs.log_setLog]
      rcases hx with ⟨taken, le⟩ | ⟨kept, -⟩
      · simpa only [ErrorLog.level, taken] using le
      · simp only [ErrorLog.level, kept, le_refl]
    · rw [ErrorLogs.log_setLog_other _ hsrc]

theorem Block.advances_triggerHold : b.Advances b.triggerHold := by
  unfold Block.triggerHold
  split
  · exact .refl b
  · exact .after (Block.advances_askRewrite _) (.of_same rfl)

theorem Block.advances_closeFrame (kind : CloseKind) : b.Advances (b.closeFrame kind) := by
  unfold Block.closeFrame
  split
  · next opened =>
    exact .after (Block.advances_askRewrite _) (Block.Beside.advances ⟨rfl, rfl, rfl, le_rfl, fun _ => opened⟩ rfl)
  · exact .refl b

theorem Block.advances_containPort (i : PortId) : b.Advances (b.containPort i) := by
  have contained : b.Advances (b.setPort i (b.port i).contain) := b.advances_setPort i (.contain _)
  unfold Block.containPort
  split
  · exact .refl b
  · refine .after (Block.advances_askRewrite _) ?_
    cases i
    · exact (contained.trans (Block.advances_closeFrame _ .truncated)).trans (Block.advances_triggerHold _).when
    · exact contained

theorem Block.advances_followReport (e : LoggedError) : b.Advances (b.followReport e) := by
  unfold Block.followReport
  split
  · exact b.advances_containPort .capture
  · exact b.advances_containPort .system
  · exact (b.advances_containPort .capture).when
  · exact (b.advances_containPort .system).when
  · exact b.advances_triggerHold
  · exact b.advances_triggerHold.when
  · exact b.advances_triggerHold.when
  · exact .refl b

theorem Block.advances_report {e : LoggedError} (he : e.severity ∈ e.code.severities) : b.Advances (b.report e) :=
  (b.advances_logError he).trans (Block.advances_followReport _ e)

end Sys2Proof.Machine
end

section
/-! SUPPORT. Ports and logs over the commands of the ports, the frame tracker and the line (O46, O57, O59). -/

namespace Sys2Proof.Machine

variable (b : Block)

/-! ### Requests and beats at a port (R129 to R131, R135, R136, R146, R148, R150) -/

theorem Block.advances_reportAddrParity (i : PortId) (r : Request) : b.Advances (b.reportAddrParity i r) :=
  b.advances_report (by cases i <;> simp [addrParityCode, ErrorCode.severities])

theorem Block.advances_writeRequest (i : PortId) (r : Request) : b.Advances (b.writeRequest i r) := by
  unfold Block.writeRequest
  split_ifs
  · refine b.advances_takes i (.takeWrite _ r _ fun contained kept => ?_)
    have exempt : b.mailboxExempt i r = true := by simpa [contained] using kept
    simpa [Block.mailboxExempt] using exempt
  · exact .after (Block.advances_reportAddrParity _ i r) (b.advances_takes i (.refuseWrite _ r _))
  · exact .refl b

theorem Block.advances_readRequest (i : PortId) (r : Request) : b.Advances (b.readRequest i r) := by
  unfold Block.readRequest
  split_ifs
  · unfold Block.takeRead
    simp only
    split
    · next opened => exact b.advances_takes i (.takeRead _ r opened _)
    · exact b.advances_takes i (.answeredRead _ r _ _ _ _)
  · exact .after (Block.advances_reportAddrParity _ i r) (b.advances_takes i (.answeredRead _ r _ _ _ _))
  · exact .refl b

/-- The last beat of a write (R130, R131, R134, R135, R150). -/
theorem Block.advances_lastBeat (i : PortId) {w : BufferedWrite} {t : TakenBeat} (hw : w ∈ (b.port i).buffer)
    (taking : w.state = .taking) (last : ¬ w.taken.length + 1 < beatCount w.beats) :
    b.Advances (b.lastBeat i { w with taken := w.taken ++ [t] }) := by
  unfold Block.lastBeat
  refine .trans (b.advances_setPort i ?_) (Block.Advances.when (Block.advances_report _ ?_))
  · split_ifs with discarded
    · exact .discardWrite _ _
    · simp only [Bool.or_eq_true, Bool.and_eq_true, beq_iff_eq, not_or, not_and, Bool.not_eq_true] at discarded
      obtain ⟨kept, mark⟩ := discarded
      refine .writeWaits fun c hs => (hs.fits w hw).fills taking t last kept fun bad => ?_
      have notContain := mark bad
      revert notContain
      cases w.policy <;> simp
  · cases i <;> cases w.policy <;> simp [dataParityCode, Policy.severity, ErrorCode.severities]

theorem Block.advances_writeBeat (i : PortId) (x : WriteBeat) : b.Advances (b.writeBeat i x) := by
  unfold Block.writeBeat
  split
  · exact .refl b
  · split
    · exact .refl b
    · exact b.advances_setPort i (.failedBeat _ _)
    · next w target =>
      obtain ⟨hw, taking⟩ := Port.beatTarget_buffered target
      unfold Block.bufferedBeat
      simp only [List.length_append, List.length_singleton]
      split
      · next lacks =>
        exact b.advances_setPort i (.takesBeat taking fun c hs => (hs.fits w hw).takes taking _ lacks)
      · next last => exact b.advances_lastBeat i hw taking last

/-! ### The inspection reset (R44) -/

theorem Block.advances_endLoad (x : LoadOutcome) (n : Nat) : b.Advances (b.endLoad x n) := by
  unfold Block.endLoad
  split
  · exact .refl b
  · exact .after (Block.advances_askRewrite _) (.of_same rfl)

theorem Block.advances_takeInspectionReset : b.Advances b.takeInspectionReset := by
  refine (b.advances_endLoad .aborted 0).trans (.after (Block.advances_askRewrite _) ?_)
  exact Block.Beside.advances ⟨rfl, rfl, rfl, le_rfl, nofun⟩ rfl

/-! ### BURST_OFFER (R23, R25, R35) -/

/-- The head write of the capture port after its answer: READY, or HELD outside an OPEN frame. -/
theorem Block.PortsSound.answered {b t : Block} (h : b.PortsSound) {w : BufferedWrite} {rest : List BufferedWrite}
    (hb : b.capture.buffer = w :: rest) (offered : b.canOffer w = true) {x : WriteState} {y : Bool}
    (capture : t.capture = { b.capture with buffer := { w with state := x, inspected := y } :: rest })
    (system : t.system = b.system) (window : t.decoder.windowBase = b.decoder.windowBase) (stamp : b.stamp ≤ t.stamp)
    (hx : x = .ready ∨ (x = .held ∧ y = false ∧ t.tracker.state ≠ .opened)) : t.PortsSound := by
  obtain ⟨opened, state⟩ := (b.canOffer_iff w).1 offered
  have whole : w.state ≠ .taking := by rcases state with hs | ⟨hs, -⟩ <;> simp [hs]
  rw [Block.portsSound_iff] at h ⊢
  obtain ⟨sound, -⟩ := h
  obtain ⟨writes, -, requests, noReads⟩ : b.capture.Sound .capture b.decoder.window b.stamp := sound .capture
  rw [hb] at writes
  rw [Decoder.window_congr window]
  have fits : ({ w with state := x, inspected := y } : BufferedWrite).Fits .capture b.capture.containment
      b.decoder.window := by
    refine (writes.fits w List.mem_cons_self).turned whole ?_ (fun _ => rfl) (fun hy => ⟨rfl, ?_⟩) fun hc => ?_
    · rcases hx with rfl | ⟨rfl, -⟩ <;> simp
    · exact hx.resolve_right fun ⟨_, hn, _⟩ => by simp [hn] at hy
    · exact absurd (opened.symm.trans hc) (by simp)
  refine ⟨fun i => ?_, fun v hv hs frame => ?_⟩
  · cases i with
    | capture =>
      show t.capture.Sound _ _ _
      rw [capture]
      exact ⟨(writes.head (v := { w with state := x, inspected := y }) rfl fits).mono stamp, nofun, requests.mono stamp, noReads⟩
    | system =>
      show t.system.Sound _ _ _
      rw [system]
      exact (sound .system).mono stamp
  · rw [capture] at hv
    rcases List.mem_cons.1 hv with rfl | hv
    · rcases hx with rfl | ⟨-, -, closed⟩
      · cases hs
      · exact closed frame
    · rcases writes.behind v hv with state | state <;> simp [state] at hs

theorem Block.stamp_le_openFrame (p : Program) : b.stamp ≤ (b.openFrame p).stamp := by
  rw [Block.openFrame_eq]
  exact b.stamp_le_askRewrite

/-- HELD is answered in CLOSING alone (R25). -/
theorem Block.offerAnswer_hold_closing {b : Block} {w : BufferedWrite} (h : b.offerAnswer w = .hold) :
    b.tracker.state = .closing := by
  unfold Block.offerAnswer at h
  split at h
  · split at h <;> cases h
  · split at h <;> cases h
  · assumption

theorem Block.advances_burstOffer : b.Advances b.burstOffer := by
  unfold Block.burstOffer
  split
  · next w rest _ hb =>
    split
    · next offered =>
      split
      · exact ⟨⟨fun h => h.answered hb offered rfl rfl rfl le_rfl (.inl rfl), id⟩, fun _ => le_rfl⟩
      · next held =>
        have closing := Block.offerAnswer_hold_closing held
        refine ⟨⟨fun h => h.answered hb offered rfl rfl rfl le_rfl (.inr ⟨rfl, rfl, ?_⟩), id⟩, fun _ => le_rfl⟩
        simp [closing]
      · exact ⟨⟨fun h => h.answered hb offered rfl rfl rfl le_rfl (.inl rfl), id⟩, fun _ => le_rfl⟩
      · next p lane _ =>
        have logs : (((b.setCaptureHead w rest .ready true).openFrame p).takeBurst p lane w).logs = b.logs := by simp
        refine ⟨⟨fun h => h.answered (x := .ready) (y := true) hb offered ?_ (by simp) (by simp) ?_ (.inl rfl),
          logs ▸ id⟩, fun _ => logs ▸ le_rfl⟩
        · simp [Block.setCaptureHead]
        · exact Block.stamp_le_openFrame (b.setCaptureHead w rest .ready true) p
    · exact .refl b
  · exact .refl b

/-! ### SEGMENT and CLOSING (R33, R41) -/

theorem Block.advances_handleSegment (p : Program) (u : Burst) (g : Segment) : b.Advances (b.handleSegment p u g) := by
  have enter : ∀ q, b.Advances (b.enterRow p u.lane q g) := fun q => by
    have frame : (b.enterRow p u.lane q g).tracker.state = b.tracker.state := by
      unfold Block.enterRow; split <;> simp [Block.setProgress]
    exact .of_same (by simp [Block.portParts, frame])
  have classify : ∀ c : Block, c.Advances (c.classifySegment p u g) := fun c => .of_same (by simp [Block.portParts])
  have leave : ∀ (c : Block) q, c.Advances (c.leaveSegment p u.lane q g) := fun c q => by
    have noticed : ∀ d : Block, d.Advances (d.notice p u.lane) := fun d => .of_same (by simp [Block.portParts])
    have progress : c.Advances (c.setProgress u.lane (q.accept (p.header.lane u.lane) g)) := .of_same rfl
    unfold Block.leaveSegment
    refine progress.trans (Block.Advances.when ?_)
    exact (noticed _).trans (Block.advances_closeFrame _ .normal).when
  unfold Block.handleSegment
  split
  · exact .refl b
  · split
    · exact .after (Block.advances_report _ (by simp [ErrorCode.severities])) (.of_same rfl)
    · exact ((enter _).trans (classify _)).trans (leave _ _)

theorem Block.advances_segment : b.Advances b.segment := by
  have done : ∀ (c : Block) u rest, c.Advances (c.setSegments u rest).resetAfterSegment := fun c u rest =>
    .after (Block.advances_takeInspectionReset (c.setSegments u rest)).when (.of_same rfl)
  unfold Block.segment
  split
  · next u p _ _ =>
    have reported : b.Advances (b.reportLaneRange u) :=
      (b.advances_report (by simp [ErrorCode.severities])).when
    simp only
    split
    · exact reported.trans (done _ u _)
    · next g rest _ => exact (reported.trans (Block.advances_handleSegment _ p u g)).trans (done _ u rest)
  · exact .refl b

theorem Block.advances_closingWork : b.Advances b.closingWork := by
  have verdicts : ∀ c : Block, c.Advances c.closeVerdicts.finishBoard := fun c => .of_same (by simp [Block.portParts])
  have idle : ∀ c : Block, c.Advances c.returnToIdle := fun c =>
    .after (Block.advances_askRewrite _) (Block.Beside.advances ⟨rfl, rfl, rfl, le_rfl, nofun⟩ rfl)
  unfold Block.closingWork
  split
  · exact ((verdicts b).trans (idle _)).trans (Block.advances_takeInspectionReset _).when
  · exact .refl b

/-! ### Samples of the line (R99 to R103, R109, R116) -/

theorem Block.advances_dueAction (x : Board) : b.Advances (b.dueAction x) := by
  unfold Block.dueAction
  split
  · exact .of_same rfl
  · exact .after (Block.advances_report _ (by simp [ErrorCode.severities])) (.of_same rfl)
  · exact .of_same rfl

theorem Block.advances_dueBoards (n : Nat) : b.Advances (Block.dueBoards n b) := by
  induction n generalizing b with
  | zero => exact .refl b
  | succ n ih =>
    unfold Block.dueBoards
    split
    · exact .refl b
    · next x rest _ =>
      split
      · have acted := b.advances_dueAction x
        have left : (b.dueAction x).Advances { b.dueAction x with line := { (b.dueAction x).line with queue := rest } } :=
          .of_same rfl
        exact ((acted.trans left).trans (Block.advances_askRewrite _)).trans (ih _)
      · exact .refl b

theorem Block.advances_positionChanged : b.Advances b.positionChanged := by
  have ended : b.Advances { b with line := b.line.windowEnd } := .of_same rfl
  refine (ended.trans (Block.advances_dueBoards _ _)).trans (Block.Advances.when ?_)
  exact (Block.advances_report _ (by simp [ErrorCode.severities])).trans (Block.advances_closeFrame _ .timeout)

theorem Block.advances_illegalSample (x : Bool × Bool) : b.Advances (b.illegalSample x) :=
  .after (Block.advances_report _ (by simp [ErrorCode.severities])) (.of_same rfl)

theorem Block.advances_illegalStep : b.Advances b.illegalStep := by
  unfold Block.illegalStep
  split
  · exact b.advances_illegalSample _
  · exact .refl b

theorem Block.advances_encoderSample (x : Bool × Bool) : b.Advances (b.encoderSample x) := by
  unfold Block.encoderSample
  split
  · exact .of_same rfl
  · split
    · exact .refl b
    · split
      · exact .after (Block.advances_positionChanged _) (.of_same rfl)
      · exact b.advances_illegalSample x

theorem Block.advances_leadingEdge : b.Advances b.leadingEdge := by
  unfold Block.leadingEdge
  simp only
  split_ifs
  · exact .refl b
  · exact .after (Block.advances_askRewrite _) (.of_same rfl)
  · refine .after (.trans (Block.advances_report _ ?_) (Block.advances_askRewrite _)) (.of_same rfl)
    simp [ErrorCode.severities]

theorem Block.advances_edgeTo (high : Bool) : b.Advances (b.edgeTo high) := by
  have settled : b.Advances (b.settleEdge high) := .of_same rfl
  unfold Block.edgeTo
  split
  · exact settled.trans (Block.advances_leadingEdge _)
  · exact settled

theorem Block.advances_edgeSample (high : Bool) : b.Advances (b.edgeSample high) := by
  unfold Block.edgeSample
  split_ifs
  · exact .of_same rfl
  · exact .of_same rfl
  · exact b.advances_edgeTo high

theorem Block.advances_boardEdgeLeading : b.Advances b.boardEdgeLeading := by
  unfold Block.boardEdgeLeading
  split
  · exact .refl b
  · exact b.advances_edgeTo _

theorem Block.advances_boardEdgeTrailing : b.Advances b.boardEdgeTrailing := (b.advances_edgeTo _).when

theorem Block.advances_elapse (n : Nat) : b.Advances (b.elapse n) := .of_same rfl

theorem Block.advances_deadTimeEnd : b.Advances b.deadTimeEnd := by
  unfold Block.deadTimeEnd
  split
  · exact .of_same rfl
  · exact .refl b

end Sys2Proof.Machine
end

section
/-! SUPPORT. Ports and logs over the commands of the record writer, the memory port and the mailbox (O46, O57, O59). -/

namespace Sys2Proof.Machine

variable (b : Block)

/-! ### The internal master and its owners (R11, R157, R174, R175) -/

theorem Block.advances_enqueue (w : InternalWork) : b.Advances (b.enqueue w) :=
  Block.Beside.advances ⟨rfl, rfl, rfl, Nat.le_succ _, id⟩ rfl

theorem Block.advances_writeProducerWord : b.Advances b.writeProducerWord := by
  unfold Block.writeProducerWord
  simp only
  split_ifs
  · exact .of_same rfl
  · exact .of_same rfl
  · exact b.advances_enqueue _
  · exact .of_same rfl

theorem Block.advances_handFetch (l : Load) : b.Advances (b.handFetch l) :=
  (b.advances_enqueue (.fetch l.nextAddress l.nextBeats)).trans (.of_same rfl)

theorem Block.advances_handSlot (ring : Ring) (r : RingRecord) : b.Advances (b.handSlot ring r) :=
  (b.advances_enqueue (slotWork ring b.writer.producer r)).trans (.of_same rfl)

theorem Block.advances_fetchReadIssue : b.Advances b.fetchReadIssue := by
  unfold Block.fetchReadIssue
  split
  · exact .refl b
  · split_ifs
    · exact .refl b
    · exact b.advances_handFetch _
    · exact .of_same rfl

theorem Block.advances_ringSlotWrite : b.Advances b.ringSlotWrite := by
  unfold Block.ringSlotWrite
  split
  · exact .refl b
  · split_ifs
    · exact .refl b
    · exact b.advances_handSlot _ _
    · exact .of_same rfl

theorem Block.advances_handWaiter (w : Waiter) : b.Advances (b.handWaiter w) := by
  unfold Block.handWaiter
  split
  · split
    · exact b.advances_handFetch _
    · exact .refl b
  · split
    · exact b.advances_handSlot _ _
    · exact .refl b
  · exact b.advances_enqueue _
  · exact b.advances_enqueue _

theorem Block.advances_internalHandover : b.Advances b.internalHandover := by
  unfold Block.internalHandover
  induction b.master.waiters generalizing b with
  | nil => exact .of_same rfl
  | cons w rest ih =>
    unfold Block.drainWaiters
    simp only
    split
    · exact .after (ih _) (.after (Block.advances_handWaiter _ w) (.of_same rfl))
    · exact .of_same rfl

/-! ### The end of a slot write, and the consumer index (R175 to R178) -/

theorem Block.advances_applyConsumer (u : ConsumerUpdate) : b.Advances (b.applyConsumer u) := by
  unfold Block.applyConsumer
  split
  · exact .refl b
  · split
    · exact .of_same rfl
    · exact .after (Block.advances_report _ (by simp [ErrorCode.severities])) (.of_same rfl)

theorem Block.advances_takeConsumer (u : ConsumerUpdate) : b.Advances (b.takeConsumer u) := by
  unfold Block.takeConsumer
  split
  · exact .refl b
  · exact .of_same rfl
  · exact b.advances_applyConsumer u

theorem Block.advances_endSlotWrite : b.Advances b.endSlotWrite := by
  have held : ∀ c : Block, c.Advances c.applyHeld := fun c => by
    unfold Block.applyHeld
    split
    · exact .after (Block.advances_applyConsumer _ _) (.of_same rfl)
    · exact .refl c
  have ended : b.Advances { b with writer := { b.writer with slotWrite := none } } := .of_same rfl
  exact (ended.trans (held _)).trans (.of_same rfl)

theorem Block.advances_slotDone (n : Nat) : b.Advances (b.slotDone n) := by
  refine Block.Advances.when (.after (Block.advances_endSlotWrite _) (.after (Block.advances_writeProducerWord _) ?_))
  exact .of_same rfl

theorem Block.advances_slotFailed (n : Nat) : b.Advances (b.slotFailed n) := by
  refine Block.Advances.when (.after (Block.advances_endSlotWrite _) ?_)
  exact .of_same rfl

/-! ### Requests at memory (R12, R139 to R141, R162) -/

theorem Block.advances_fetchDone (n : Nat) (data : List Beat) : b.Advances (b.fetchDone n data) := by
  have validated : ∀ v, b.Advances (b.takeValidation v) := fun v => by
    cases v with
    | more l => exact .of_same rfl
    | failed outcome index => exact b.advances_endLoad outcome index
    | passed p =>
      simp only [Block.takeValidation, Block.completeLoad]
      split
      · exact b.advances_endLoad _ _
      · exact .after (Block.advances_askRewrite _) (.of_same rfl)
  unfold Block.fetchDone
  split
  · exact validated _
  · exact .refl b

theorem Block.advances_ownerDone (o : EntryOwner) (data : List Beat) : b.Advances (b.ownerDone o data) := by
  unfold Block.ownerDone
  split
  · exact b.advances_fetchDone _ _
  · exact b.advances_slotDone _
  · exact .refl b

theorem Block.advances_ownerFails (o : EntryOwner) : b.Advances (b.ownerFails o) := by
  unfold Block.ownerFails
  split
  · unfold Block.fetchFailed
    split
    · exact b.advances_endLoad _ _
    · exact .refl b
  · exact b.advances_slotFailed _
  · exact .refl b

theorem Block.advances_answerPort (i : PortId) (n : Nat) (r : Response) (data : List Beat) :
    b.Advances (b.answerPort i n r data) := b.advances_setPort i (.answer _ n r data)

theorem Block.advances_memoryResponse (tag : Nat) (r : Response) (data : List Beat) :
    b.Advances (b.memoryResponse tag r data) := by
  unfold Block.memoryResponse
  split
  · exact .refl b
  · next e _ =>
    refine .trans (.of_same rfl : b.Advances (b.retire tag)) ?_
    unfold Block.route
    split
    · exact Block.advances_answerPort _ _ _ _ _
    · refine .after (Block.advances_report _ ?_) (Block.advances_answerPort _ _ _ _ _)
      simp [TableEntry.error, ErrorCode.severities]
    · exact Block.advances_ownerDone _ _ _
    · refine .after (Block.advances_ownerFails _ _) (Block.advances_report _ ?_)
      simp [TableEntry.error, ErrorCode.severities]

theorem Block.advances_responseTimerExpiry (tag : Nat) : b.Advances (b.responseTimerExpiry tag) := by
  unfold Block.responseTimerExpiry
  split
  · exact .refl b
  · next e _ =>
    refine .trans (.of_same rfl : b.Advances ((b.elapse e.timer).retire tag)) ?_
    have reported : ∀ c : Block, c.Advances (c.report (e.error .mTimeout .degraded)) := fun c =>
      c.advances_report (by simp [TableEntry.error, ErrorCode.severities])
    unfold Block.timeOut
    simp only
    split
    · exact .after (Block.advances_answerPort _ _ _ _ _) (reported _)
    · exact .after (Block.advances_ownerFails _ _) (reported _)

/-! ### The commands of the mailbox (R8, R9, R137, R145, R164, R172, R190, R192) -/

theorem Block.advances_setLine : b.Advances b.setLine.1 := by
  have gate : ∀ (c : Block) g, c.Advances (c.setGateMode g) := fun c g => by
    unfold Block.setGateMode
    split
    · exact .after (Block.advances_askRewrite _) (.of_same rfl)
    · exact .after (Block.advances_askRewrite _) (.of_same rfl)
    · exact .refl c
  unfold Block.setLine
  split
  · exact .refl b
  · split_ifs
    · exact .refl b
    · exact .refl b
    · exact .after (gate _ _) (.of_same rfl)

theorem Block.advances_setPortPolicy : b.Advances b.setPortPolicy.1 := by
  unfold Block.setPortPolicy
  simp only
  split
  · next i policy fail _ _ _ =>
    have put : b.Advances (b.setPort i { b.port i with policy := policy, failResponse := fail }) :=
      b.advances_setPort i (.settings _ policy fail _ (.inl rfl))
    split_ifs
    · exact put
    · exact put.trans (.of_same rfl)
  · exact .refl b

theorem Block.advances_resumePort : b.Advances b.resumePort.1 := by
  unfold Block.resumePort
  split
  · exact .refl b
  · split
    · exact .refl b
    · split
      · exact .refl b
      · exact .after (Block.advances_askRewrite _) (b.advances_setPort _ (.settings _ _ _ .opened (.inr rfl)))

theorem Block.advances_loadProgram : b.Advances b.loadProgram.1 := by
  unfold Block.loadProgram
  simp only
  split
  · exact .refl b
  · split
    · exact .refl b
    · exact .after (Block.advances_askRewrite _) (.of_same rfl)

theorem Block.advances_abortLoad : b.Advances b.abortLoad.1 := by
  unfold Block.abortLoad
  split
  · exact b.advances_endLoad _ _
  · exact .refl b

theorem Block.advances_setRing : b.Advances b.setRing.1 := by
  unfold Block.setRing
  simp only
  split_ifs
  · exact .refl b
  · exact .refl b
  · exact .of_same rfl

theorem Block.advances_releaseGate : b.Advances b.releaseGate.1 := by
  unfold Block.releaseGate
  split
  · exact .after (Block.advances_askRewrite _) (.of_same rfl)
  · exact .refl b

theorem Block.advances_inspectionReset (inHand : Bool) : b.Advances (b.inspectionReset inHand).1 := by
  unfold Block.inspectionReset
  split_ifs
  · exact .refl b
  · exact .of_same rfl
  · exact b.advances_takeInspectionReset

/-- Any command but CLEAR_LOG. -/
theorem Block.advances_decideCommand {kind : Nat} (hk : kind ≠ 6) (inHand : Bool) :
    b.Advances (b.decideCommand kind inHand).1 := by
  unfold Block.decideCommand
  split
  · exact b.advances_loadProgram
  · exact b.advances_abortLoad
  · exact b.advances_setRing
  · exact b.advances_setLine
  · exact b.advances_setPortPolicy
  · exact absurd rfl hk
  · exact b.advances_resumePort
  · exact b.advances_releaseGate
  · exact b.advances_inspectionReset inHand
  · exact .refl b

theorem Block.advances_recordCommand (kind : Nat) (o : CommandOutcome) : b.Advances (b.recordCommand kind o) :=
  .after (Block.advances_askRewrite _) (.of_same rfl)

/-- CLEAR_LOG leaves ports and logs sound (R128). -/
theorem Block.staysSound_clearLog : b.StaysSound b.clearLog.1 := by
  unfold Block.clearLog
  split
  · exact ⟨Block.Beside.portsSound ⟨rfl, rfl, rfl, le_rfl, id⟩, fun h => h.setLog ⟨nofun, fun _ => rfl⟩⟩
  · exact ⟨id, id⟩

/-- CLEAR_LOG has been taken, and ports and logs are as sound as they were. -/
structure Block.TakesClearLog (b t : Block) : Prop extends b.StaysSound t where
  count : t.decoder.commandCount = b.decoder.commandCount + 1
  kind : t.decoder.lastKind = 6

/-- What the mailbox decoder makes of a copied write (R188): it takes CLEAR_LOG only when the write enables a byte of
the kind word, and the word then reads 6. -/
theorem Block.decodeCopy_advances (c : MailboxCopy) (inHand : Bool) :
    b.Advances (b.decodeCopy c inHand)
    ∨ (b.TakesClearLog (b.decodeCopy c inHand) ∧ c.enablesKind = true ∧ (b.mergeCopy c).decoder.kind = 6) := by
  have merged : b.Advances (b.mergeCopy c) := .of_same (by simp [Block.portParts, Block.mergeCopy])
  have count : (b.mergeCopy c).decoder.commandCount = b.decoder.commandCount := by simp only [Block.mergeCopy]
  obtain ⟨d, hd, consumed, decoder⟩ : ∃ d : Block, d = (if c.enablesWord then
      (b.mergeCopy c).takeConsumer ⟨(b.mergeCopy c).decoder.consumerValue, c.master, c.addr⟩ else b.mergeCopy c)
      ∧ b.Advances d ∧ d.decoder = (b.mergeCopy c).decoder :=
    ⟨_, rfl, merged.trans (Block.advances_takeConsumer _ _).when, by split <;> simp⟩
  simp only [Block.decodeCopy, ← hd]
  split
  · next takes =>
    simp only [Bool.and_eq_true] at takes
    by_cases hk : d.decoder.kind = 6
    · refine .inr ⟨⟨consumed.toStaysSound.trans ?_, ?_, ?_⟩, takes.1, decoder ▸ hk⟩
      · simp only [Block.takeCommand, hk]
        exact d.staysSound_clearLog.trans (Block.advances_recordCommand _ _ _).toStaysSound
      · have kept : d.clearLog.1.decoder = d.decoder := by unfold Block.clearLog; split <;> rfl
        simp only [Block.takeCommand, hk]
        simp [Block.recordCommand, Block.decideCommand, kept, decoder, count]
      · simp [Block.takeCommand, Block.recordCommand, hk]
    · exact .inl (consumed.trans ((d.advances_decideCommand hk inHand).trans (Block.advances_recordCommand _ _ _)))
  · exact .inl consumed

/-! ### ARBITER_GRANT (R150, R151, R153, R157, R161, R163, R189) -/

theorem Block.advances_forwardWrite (i : PortId) (w : BufferedWrite) (tag : Nat) :
    b.Advances (b.forwardWrite i w tag) :=
  (b.advances_setPort i (.headLeaves _)).trans (.of_same rfl)

theorem Block.advances_forwardRead (i : PortId) (r : ListedRead) (tag : Nat) : b.Advances (b.forwardRead i r tag) :=
  (b.advances_setPort i (.readLeaves _)).trans (.of_same rfl)

theorem Block.advances_forwardInternal (r : InternalRequest) (tag : Nat) : b.Advances (b.forwardInternal r tag) :=
  .of_same (by simp [Block.portParts, Block.forwardInternal])

theorem Block.afterWrite_advances (i : PortId) (w : BufferedWrite) (inHand : Bool) :
    b.Advances (b.afterWrite i w inHand) ∨ b.TakesClearLog (b.afterWrite i w inHand) := by
  unfold Block.afterWrite
  split
  · cases i with
    | capture => exact .inl (b.advances_report (by simp [ErrorCode.severities]))
    | system =>
      simp only
      split
      · exact .inl (.refl b)
      · exact (b.decodeCopy_advances _ inHand).imp_right And.left
  · exact .inl (.refl b)

variable {b}

/-- CLEAR_LOG taken after a part of the command that leaves the decoder as it was. -/
theorem Block.TakesClearLog.after {c t : Block} (h : c.TakesClearLog t) (hb : b.Advances c)
    (decoder : c.decoder = b.decoder) : b.TakesClearLog t :=
  ⟨hb.toStaysSound.trans h.toStaysSound, by rw [h.count, decoder], h.kind⟩

variable (b)

theorem Block.arbiterGrant_advances (pick : Nat) (inHand : Bool) :
    b.Advances (b.arbiterGrant pick inHand) ∨ b.TakesClearLog (b.arbiterGrant pick inHand) := by
  unfold Block.arbiterGrant
  split
  · next x tag _ _ =>
    cases x with
    | write i w =>
      have sent := b.advances_forwardWrite i w tag
      have decoder : (b.forwardWrite i w tag).decoder = b.decoder := by simp [Block.forwardWrite]
      exact (Block.afterWrite_advances _ i w inHand).imp sent.trans fun h => h.after sent decoder
    | read i r => exact .inl (b.advances_forwardRead i r tag)
    | internal r => exact .inl (b.advances_forwardInternal r tag)
  · exact .inl (.refl b)

/-! ### The rows of the mailbox (R183 to R185, R187) -/

/-- A command row of another kind takes no CLEAR_LOG. -/
theorem Block.advances_commandWrite {kind : Nat} (fields : List SlotField) (inHand : Bool) (hk : kind ≠ 6)
    (h : kind < 2 ^ 32) : b.Advances (b.commandWrite kind fields inHand) := by
  refine (b.decodeCopy_advances _ inHand).resolve_right fun ⟨_, _, six⟩ => hk ?_
  rw [Block.mergeCopy_slotCopy] at six
  exact (kind_merged b.decoder.slot kind fields h).symm.trans six

/-- A consumer update takes no command. -/
theorem Block.advances_consumerUpdate (master : MasterId) (addr : Addr) (bytes : Vector (Option Byte) 4) :
    b.Advances (b.decodeCopy ⟨master, addr, noBytes, bytes⟩ false) := by
  refine (b.decodeCopy_advances _ false).resolve_right fun ⟨_, enables, _⟩ => ?_
  simp [MailboxCopy.enablesKind, noBytes] at enables

/-- A shadow write that takes no command: the kind word is untouched, or is written whole as 0 (R183). -/
theorem Block.advances_shadowWrite {bytes : Vector (Option Byte) 64} (h : takesNoCommand bytes = true) :
    b.Advances (b.decodeCopy (slotCopy bytes) false) := by
  refine (b.decodeCopy_advances _ false).resolve_right fun ⟨_, enables, six⟩ => ?_
  simp only [takesNoCommand, kindBytes, Bool.or_eq_true, List.all_cons, List.all_nil, Bool.and_true, Bool.and_eq_true,
    beq_iff_eq] at h
  rcases h with ⟨h0, h1, h2, h3⟩ | ⟨h0, h1, h2, h3⟩
  · simp [MailboxCopy.enablesKind, slotCopy, h0, h1, h2, h3] at enables
  · rw [Block.mergeCopy_slotCopy] at six
    have zero : ∀ k (hk : k < 4), (mergeShadow b.decoder.slot bytes).toList[k]? = some 0 := fun k hk => by
      have : k = 0 ∨ k = 1 ∨ k = 2 ∨ k = 3 := by omega
      rcases this with rfl | rfl | rfl | rfl <;> simp [mergeShadow, h0, h1, h2, h3]
    simp only [Decoder.kind, Decoder.argument, fieldAt_eq_sum, List.range, List.range.loop, List.map_cons, List.map_nil,
      Nat.zero_add, zero 0 (by omega), zero 1 (by omega), zero 2 (by omega), zero 3 (by omega)] at six
    simp at six

end Sys2Proof.Machine
end

section
/-! SUPPORT. Ports and logs over every command (O46, O57, O59). -/

namespace Sys2Proof.Machine

/-- A command that takes CLEAR_LOG: the command itself, a grant that copies it to the mailbox, or one that is none of
the spec's events. -/
def mayClearLog : Instr → Bool
  | .clearLog _ => true
  | .arbiterGrant _ _ => true
  | c => !c.wellFormed

/-- Every command but a full reset keeps ports and logs sound, and lowers no log's severity unless it takes
CLEAR_LOG. -/
theorem exec_advances {c : Instr} {s t : State} (h : exec c s = .next t)
    (reset : ∀ kind straps contain, c ≠ .fullReset kind straps contain) :
    s.block.Advances t.block ∨ (s.block.TakesClearLog t.block ∧ mayClearLog c = true) := by
  have command : ∀ {kind fields inHand}, kind ≠ 6 → kind < 2 ^ 32 →
      (s.onBlock fun b => b.commandWrite kind fields inHand) = .next t → s.block.Advances t.block :=
    fun hk small hf => onBlock_block hf ▸ s.block.advances_commandWrite _ _ hk small
  have copied : ∀ {c inHand}, (s.onBlock fun b => b.decodeCopy c inHand) = .next t →
      s.block.Advances t.block ∨ s.block.TakesClearLog t.block :=
    fun {c inHand} hf => onBlock_block hf ▸ (s.block.decodeCopy_advances c inHand).imp_right And.left
  cases c with
  | fullReset kind straps contain => exact absurd rfl (reset kind straps contain)
  | clearLog n => exact (copied h).imp_right fun clears => ⟨clears, rfl⟩
  | arbiterGrant pick inHand =>
    cases h
    exact (s.block.arbiterGrant_advances pick inHand).imp_right fun clears => ⟨clears, rfl⟩
  | mailboxShadowWrite bytes =>
    by_cases none : takesNoCommand bytes = true
    · cases h
      exact .inl (s.block.advances_shadowWrite none)
    · exact (copied h).imp_right fun clears => ⟨clears, by simp [mayClearLog, Instr.wellFormed, none]⟩
  | unknownKind k =>
    by_cases six : k.toNat = 6
    · exact (copied h).imp_right fun clears => ⟨clears, by simp [mayClearLog, Instr.wellFormed, six]⟩
    · exact .inl (command six k.isLt h)
  | writeRequest i r => cases h; exact .inl (s.block.advances_writeRequest i r)
  | readRequest i r => cases h; exact .inl (s.block.advances_readRequest i r)
  | writeBeat i x => cases h; exact .inl (s.block.advances_writeBeat i x)
  | burstOffer => cases h; exact .inl s.block.advances_burstOffer
  | segment => cases h; exact .inl s.block.advances_segment
  | closing => cases h; exact .inl s.block.advances_closingWork
  | encoderStep x y => cases h; exact .inl (s.block.advances_encoderSample (x, y))
  | illegalStep => cases h; exact .inl s.block.advances_illegalStep
  | boardEdgeTrailing => cases h; exact .inl s.block.advances_boardEdgeTrailing
  | boardEdgeLeading => cases h; exact .inl s.block.advances_boardEdgeLeading
  | boardEdgeSample x => cases h; exact .inl (s.block.advances_edgeSample x)
  | deadTimeEnd => cases h; exact .inl s.block.advances_deadTimeEnd
  | memoryResponse tag r data => cases h; exact .inl (s.block.advances_memoryResponse tag r data)
  | responseTimerExpiry tag => cases h; exact .inl (s.block.advances_responseTimerExpiry tag)
  | fetchReadIssue => cases h; exact .inl s.block.advances_fetchReadIssue
  | ringSlotWrite => cases h; exact .inl s.block.advances_ringSlotWrite
  | internalHandover => cases h; exact .inl s.block.advances_internalHandover
  | consumerUpdate m a bytes => cases h; exact .inl (s.block.advances_consumerUpdate m a bytes)
  | loadProgram a => exact .inl (command (by decide) (by decide) h)
  | abortLoad => exact .inl (command (by decide) (by decide) h)
  | setRing a n i => exact .inl (command (by decide) (by decide) h)
  | setLine a => exact .inl (command (by decide) (by decide) h)
  | setPortPolicy i p f l => exact .inl (command (by decide) (by decide) h)
  | resumePort n => exact .inl (command (by decide) (by decide) h)
  | releaseGate => exact .inl (command (by decide) (by decide) h)
  | inspectionReset inHand => exact .inl (command (by decide) (by decide) h)

/-- A full reset empties ports and logs (R123, R133, R165). -/
theorem Block.staysSound_fullReset (b : Block) (kind : FullResetKind) (mbxSel : BitVec 3) (imgContain : Bool) :
    b.StaysSound (b.fullReset kind mbxSel imgContain) :=
  ⟨fun _ => Block.portsSound_of_empty fun i => by cases i <;> exact ⟨rfl, rfl, rfl⟩, fun _ => ErrorLogs.fresh_sound⟩

theorem exec_staysSound {c : Instr} {s t : State} (h : exec c s = .next t) : s.block.StaysSound t.block := by
  by_cases reset : ∃ kind straps contain, c = .fullReset kind straps contain
  · obtain ⟨kind, straps, contain, rfl⟩ := reset
    cases h
    exact s.block.staysSound_fullReset kind straps contain
  · push Not at reset
    rcases exec_advances h reset with advances | ⟨clears, -⟩
    · exact advances.toStaysSound
    · exact clears.toStaysSound

theorem step_staysSound {s t : State} (h : step s = .next t) : s.block.StaysSound t.block := by
  unfold step at h
  split at h
  · cases h
    exact (s.block.advances_elapse 1).toStaysSound
  · next rest _ => exact exec_staysSound (s := { s with pending := rest }) h

/-- Settles O57: every port stays sound under each of the changes that a command makes to one. -/
theorem everyStepKeepsThePortsSound : Obligations.EveryStepKeepsThePortsSound := by
  unfold Obligations.EveryStepKeepsThePortsSound
  exact fun s t sound h => (step_staysSound h).ports sound

/-- Settles O59: every error that a command logs has a severity of its code. -/
theorem everyStepKeepsTheLogsSound : Obligations.EveryStepKeepsTheLogsSound := by
  unfold Obligations.EveryStepKeepsTheLogsSound
  exact fun s t sound h => (step_staysSound h).logs sound

/-- Settles O46: only CLEAR_LOG empties a log, and an error replaces the one held only at a higher severity. -/
theorem logSeverityNeverDecreases : Obligations.LogSeverityNeverDecreases := by
  unfold Obligations.LogSeverityNeverDecreases
  intro c s t src wellFormed h reset clear grant
  rcases exec_advances h reset with advances | ⟨clears, may⟩
  · exact advances.levels src
  · unfold mayClearLog at may
    split at may
    · next code => exact absurd rfl (clear code)
    · next pick inHand =>
      rcases grant pick inHand rfl with count | kind
      · exact absurd (count.symm.trans clears.count) (by simp)
      · exact absurd clears.kind kind
    · simp [wellFormed] at may

end Sys2Proof.Machine
end

section
/-! SUPPORT. Requests taken, refused and answered at a port (R129, R135, R136, R148, R149; O3, O4, O5). -/

namespace Sys2Proof.Machine

/-! ### The answer to a request that has just been taken (R149) -/

/-- Deciding the request at the end of the list marks it and releases the answers of its kind. -/
theorem Port.answer_last (p : Port) (q : OpenRequest) (resp : Response) (data : List Beat)
    (fresh : ∀ x ∈ p.unanswered, x.stamp ≠ q.stamp) :
    let marked := p.unanswered ++ [{ q with decided := some ⟨q.master, q.direction, resp, data⟩ }]
    ({ p with unanswered := p.unanswered ++ [q] } : Port).answer q.stamp resp data =
      { p with
        unanswered := (releaseAnswers q.master q.direction marked).1
        given := p.given ++ (releaseAnswers q.master q.direction marked).2 } := by
  have found : (p.unanswered ++ [q]).find? (·.stamp == q.stamp) = some q := by
    rw [List.find?_append, List.find?_eq_none.mpr]
    · simp
    · intro x hx; simp [fresh x hx]
  have others : (p.unanswered.map fun x =>
      if x.stamp = q.stamp then { x with decided := some ⟨x.master, x.direction, resp, data⟩ } else x)
        = p.unanswered :=
    (List.map_congr_left fun x hx => by simp [fresh x hx]).trans p.unanswered.map_id
  simp only [Port.answer, found, List.map_append, List.map_cons, List.map_nil, others, if_true]

/-- Behind an undecided request of its kind the new request waits with its answer (R149). -/
theorem Port.answer_last_waits (p : Port) (q : OpenRequest) (resp : Response) (data : List Beat)
    (fresh : ∀ x ∈ p.unanswered, x.stamp ≠ q.stamp) {before after : List OpenRequest} {first : OpenRequest}
    (hl : p.unanswered = before ++ first :: after)
    (hb : ∀ x ∈ before, x.sameKind q.master q.direction = false)
    (hk : first.sameKind q.master q.direction = true) (hd : first.decided = none) :
    ({ p with unanswered := p.unanswered ++ [q] } : Port).answer q.stamp resp data =
      { p with unanswered :=
          p.unanswered ++ [{ q with decided := some ⟨q.master, q.direction, resp, data⟩ }] } := by
  rw [p.answer_last q resp data fresh]
  simp only [hl, List.append_assoc, List.cons_append, releaseAnswers_stop _ _ _ _ _ hb hk hd, List.append_nil]

/-! ### Requests at a port -/

section

variable (b : Block) (i : PortId) (r : Request)

theorem Block.nextStamp_setPort (p : Port) :
    (b.setPort i p).nextStamp = { b.setPort i p with stamp := b.stamp + 1 } := by
  cases i <;> rfl

theorem exec_writeRequest (s : State) :
    exec (.writeRequest i r) s = .next (s.withBlock (s.block.writeRequest i r)) := rfl

theorem exec_readRequest (s : State) :
    exec (.readRequest i r) s = .next (s.withBlock (s.block.readRequest i r)) := rfl

theorem Block.takeWrite_eq : b.takeWrite i r =
    { b.setPort i { b.port i with
        buffer := (b.port i).buffer ++
          [{ stamp := b.stamp, master := r.master, addr := r.addr, beats := r.beats, policy := (b.port i).policy
             taken := [], state := .taking, inspected := false
             doomed := decide ((b.port i).containment = .contained) && !b.mailboxExempt i r }]
        unanswered := (b.port i).unanswered ++ [⟨b.stamp, r.master, .write, false, none⟩] }
      with stamp := b.stamp + 1 } :=
  b.nextStamp_setPort i _

variable {b i r}

theorem Block.takeRead_opened (opened : (b.port i).containment = .opened) : b.takeRead i r =
    { b.setPort i { b.port i with
        reads := (b.port i).reads ++ [⟨b.stamp, r.master, r.addr, r.beats, (b.port i).failResponse⟩]
        unanswered := (b.port i).unanswered ++ [⟨b.stamp, r.master, .read, true, none⟩] }
      with stamp := b.stamp + 1 } := by
  unfold Block.takeRead
  simp only
  split
  · exact b.nextStamp_setPort i _
  · next contained => exact absurd (opened.symm.trans contained) (by decide)

theorem Block.takeRead_contained (contained : (b.port i).containment = .contained) : b.takeRead i r =
    { b.setPort i (({ b.port i with
        unanswered := (b.port i).unanswered ++ [⟨b.stamp, r.master, .read, true, none⟩] } : Port).answer b.stamp
          (b.port i).failResponse.response ((b.port i).failResponse.data r.beats))
      with stamp := b.stamp + 1 } := by
  unfold Block.takeRead
  simp only
  split
  · next opened => exact absurd (opened.symm.trans contained) (by decide)
  · exact b.nextStamp_setPort i _

theorem Block.writeRequest_taken (room : (b.port i).buffer.length < 8) (ok : requestParityOk r .write = true) :
    b.writeRequest i r = b.takeWrite i r := by
  simp [Block.writeRequest, Config.writeBufferPlaces, room, ok]

theorem Block.writeRequest_refused (room : (b.port i).buffer.length < 8) (bad : requestParityOk r .write = false) :
    b.writeRequest i r = b.refuseWrite i r := by
  simp [Block.writeRequest, Config.writeBufferPlaces, room, bad]

/-- Without room the request stays with the partner (R148; log entry 12). -/
theorem Block.writeRequest_full (full : 8 ≤ (b.port i).buffer.length) : b.writeRequest i r = b := by
  simp [Block.writeRequest, Config.writeBufferPlaces, full.not_gt]

theorem Block.readRequest_taken (room : (b.port i).readsHeld < 16) (ok : requestParityOk r .read = true) :
    b.readRequest i r = b.takeRead i r := by
  simp [Block.readRequest, Config.readPlaces, room, ok]

theorem Block.readRequest_refused (room : (b.port i).readsHeld < 16) (bad : requestParityOk r .read = false) :
    b.readRequest i r = b.refuseRead i r := by
  simp [Block.readRequest, Config.readPlaces, room, bad]

/-- Without room the request stays with the partner (R148; log entry 12). -/
theorem Block.readRequest_full (full : 16 ≤ (b.port i).readsHeld) : b.readRequest i r = b := by
  simp [Block.readRequest, Config.readPlaces, full.not_gt]

end

/-- Settles O3, by the room that the port has. -/
theorem requestsTakeTheirPlaceOrWait : Obligations.RequestsTakeTheirPlaceOrWait := by
  unfold Obligations.RequestsTakeTheirPlaceOrWait
  refine ⟨fun s i r room ok => ?_, fun s i r room ok opened => ?_, fun s i r => ⟨fun full => ?_, fun full => ?_⟩⟩
  · rw [exec_writeRequest, Block.writeRequest_taken room ok]
    rw [Block.takeWrite_eq]
    rfl
  · rw [exec_readRequest, Block.readRequest_taken room ok, Block.takeRead_opened opened]
  · rw [exec_writeRequest, Block.writeRequest_full full]
    rfl
  · rw [exec_readRequest, Block.readRequest_full full]
    rfl

/-- Settles O4: the answer is the fail response, decided for the request at the end of the list. -/
theorem containedReadGetsTheFailResponse : Obligations.ContainedReadGetsTheFailResponse := by
  unfold Obligations.ContainedReadGetsTheFailResponse
  intro s i r room ok contained response data becomes
  have answered : becomes (({ s.block.port i with unanswered := (s.block.port i).unanswered
      ++ [⟨s.block.stamp, r.master, .read, true, none⟩] } : Port).answer s.block.stamp response data) := by
    simp only [becomes]
    rw [exec_readRequest, Block.readRequest_taken room ok, Block.takeRead_contained contained]
    rfl
  refine ⟨answered, fun alone => ?_, fun before after q hl fresh hb hk hd => ?_⟩
  · rw [← Port.answer_new _ ⟨s.block.stamp, r.master, .read, true, none⟩ response data alone]
    exact answered
  · rw [← Port.answer_last_waits _ ⟨s.block.stamp, r.master, .read, true, none⟩ response data fresh hl hb hk hd]
    exact answered

end Sys2Proof.Machine
end

section
/-! SUPPORT. Parity as a count of ones (R129, R130, R146), and the beats of a write whose request failed its parity
check (R129; O5). -/

namespace Sys2Proof.Machine

/-! ### Parity -/

theorem decide_odd_add (m n : Nat) : decide ((m + n) % 2 = 1) = (decide (m % 2 = 1) ^^ decide (n % 2 = 1)) := by
  rcases Nat.mod_two_eq_zero_or_one m with hm | hm <;> rcases Nat.mod_two_eq_zero_or_one n with hn | hn <;>
    simp [Nat.add_mod, hm, hn]

theorem foldl_xor_eq_countP (f : Nat → Bool) (l : List Nat) (p : Bool) :
    l.foldl (fun p i => p ^^ f i) p = (p ^^ decide (l.countP f % 2 = 1)) := by
  induction l generalizing p with
  | nil => simp
  | cons i l ih =>
    rw [List.foldl_cons, ih, List.countP_cons, decide_odd_add, Bool.xor_assoc, Bool.xor_comm (f i)]
    cases f i <;> rfl

theorem oddOnes_eq_countP {w : Nat} (x : BitVec w) :
    oddOnes x = decide ((List.range w).countP (fun k => x.getLsbD k) % 2 = 1) := by
  simp [oddOnes, foldl_xor_eq_countP]

theorem decide_odd_toNat (p : Bool) : decide (p.toNat % 2 = 1) = p := by
  cases p <;> rfl

theorem beq_not_xor : ∀ a b c p : Bool, (p == !(a ^^ b ^^ c)) = (a ^^ b ^^ c ^^ p) := by
  decide

/-- The request parity check is odd parity over what the request carries (R129). -/
theorem requestParityOk_eq_odd (r : Request) (dir : Direction) :
    requestParityOk r dir = decide (((List.range 8).countP (fun k => r.master.getLsbD k)
      + (List.range 40).countP (fun k => r.addr.getLsbD k) + (Config.controlParity r.beats dir).toNat
      + r.parity.toNat) % 2 = 1) := by
  simp only [decide_odd_add, decide_odd_toNat, ← oddOnes_eq_countP, requestParityOk, requestParity]
  exact beq_not_xor _ _ _ _

/-! ### The only request of its kind (R149) -/

/-- The only open request of its master ID and direction is answered at once. -/
theorem Port.answer_alone {p : Port} {before after : List OpenRequest} {q : OpenRequest} (resp : Response)
    (data : List Beat) (hl : p.unanswered = before ++ q :: after) (hn : (p.unanswered.map (·.stamp)).Nodup)
    (alone : ∀ r ∈ before ++ after, r.sameKind q.master q.direction = false) :
    p.answer q.stamp resp data = { p with
      unanswered := before ++ after
      given := p.given ++ [⟨q.master, q.direction, resp, data⟩] } := by
  have hb := fun r hr => alone r (List.mem_append_left _ hr)
  have ha := fun r hr => alone r (List.mem_append_right _ hr)
  rw [p.answer_of_mem before after q resp data hl hn, releaseAnswers_go _ _ _ _ _ _ hb (by simp [OpenRequest.sameKind])
    rfl, releaseAnswers_none _ _ _ ha]

/-! ### The write a beat belongs to (R146) -/

/-- The oldest write that lacks beats is one whose request parity failed. -/
theorem Port.beatTarget_failed {p : Port} {f : FailedWrite} {later : List FailedWrite} (hf : p.failing = f :: later)
    (older : ∀ v ∈ p.buffer, v.state = .taking → f.stamp < v.stamp) : p.beatTarget = some (.failed f) := by
  unfold Port.beatTarget
  cases hw : p.buffer.find? (·.state == .taking) with
  | none => simp [hf]
  | some w =>
    have taking : w.state = .taking := by simpa using List.find?_some hw
    simp [hf, older w (List.mem_of_find?_eq_some hw) taking]

/-- No write lacks beats. -/
theorem Port.beatTarget_none {p : Port} (hf : p.failing = []) (whole : ∀ v ∈ p.buffer, v.state ≠ .taking) :
    p.beatTarget = none := by
  have : p.buffer.find? (·.state == .taking) = none := by simpa using whole
  simp [Port.beatTarget, hf, this]

/-! ### The beats of a refused write (R129) -/

section

variable {p : Port} {f : FailedWrite} {later : List FailedWrite}

theorem Port.failedBeat_more (hf : p.failing = f :: later) (apart : ∀ g ∈ later, g.stamp ≠ f.stamp)
    (more : 2 ≤ f.left) : p.failedBeat f = { p with failing := { f with left := f.left - 1 } :: later } := by
  have others : later.map (fun v => if v.stamp = f.stamp then { v with left := f.left - 1 } else v) = later :=
    (List.map_congr_left fun g hg => by simp [apart g hg]).trans later.map_id
  have lacks : ¬ f.left ≤ 1 := by omega
  simp [Port.failedBeat, hf, others, lacks]

theorem Port.failedBeat_last (hf : p.failing = f :: later) (apart : ∀ g ∈ later, g.stamp ≠ f.stamp)
    (last : f.left = 1) :
    p.failedBeat f = ({ p with failing := later } : Port).answer f.stamp .error [] := by
  have others : later.filter (fun v => v.stamp != f.stamp) = later :=
    List.filter_eq_self.mpr fun g hg => by simpa using apart g hg
  simp [Port.failedBeat, hf, others, last]

end

/-! ### WRITE_BEAT at a port -/

section

variable {s : State} {i : PortId} {x : WriteBeat}

theorem exec_writeBeat (s : State) (i : PortId) (x : WriteBeat) :
    exec (.writeBeat i x) s = .next (s.withBlock (s.block.writeBeat i x)) := rfl

/-- A beat of a write that a full reset has lost is dropped (R165; log entry 44). -/
theorem exec_writeBeat_lost (lost : x.ofLostWrite = true) : exec (.writeBeat i x) s = .next s := by
  rw [exec_writeBeat, Block.writeBeat, if_pos lost]
  rfl

theorem exec_writeBeat_none (none : (s.block.port i).beatTarget = none) : exec (.writeBeat i x) s = .next s := by
  rw [exec_writeBeat, Block.writeBeat, none, ite_self]
  rfl

theorem exec_writeBeat_failed (own : x.ofLostWrite = false) {f : FailedWrite}
    (target : (s.block.port i).beatTarget = some (.failed f)) :
    exec (.writeBeat i x) s = .next (s.withBlock (s.block.setPort i ((s.block.port i).failedBeat f))) := by
  simp [exec_writeBeat, Block.writeBeat, own, target]

theorem exec_writeBeat_buffered (own : x.ofLostWrite = false) {w : BufferedWrite}
    (target : (s.block.port i).beatTarget = some (.buffered w)) :
    exec (.writeBeat i x) s = .next (s.withBlock (s.block.bufferedBeat i w x)) := by
  simp [exec_writeBeat, Block.writeBeat, own, target]

end

/-! ### Refused requests (R129) -/

theorem Block.refuseWrite_eq (b : Block) (i : PortId) (r : Request) : b.refuseWrite i r =
    ({ b.setPort i { b.port i with
        failing := (b.port i).failing ++ [⟨b.stamp, beatCount r.beats⟩]
        unanswered := (b.port i).unanswered ++ [⟨b.stamp, r.master, .write, false, none⟩] }
      with stamp := b.stamp + 1 } : Block).report ⟨addrParityCode i, .fatal, r.master, r.addr, 0⟩ :=
  congrArg (fun c : Block => c.report _) (b.nextStamp_setPort i _)

/-- The data of the answer to a refused read (log entry 6). -/
def refusedReadData (stamp : Nat) (r : Request) : List Beat :=
  (List.range (beatCount r.beats)).map (Config.refusedReadBeat stamp)

theorem refusedReadData_length (stamp : Nat) (r : Request) : (refusedReadData stamp r).length = beatCount r.beats := by
  simp [refusedReadData]

theorem Block.refuseRead_eq (b : Block) (i : PortId) (r : Request) : b.refuseRead i r =
    ({ b.setPort i (({ b.port i with
        unanswered := (b.port i).unanswered ++ [⟨b.stamp, r.master, .read, false, none⟩] } : Port).answer b.stamp
          .error (refusedReadData b.stamp r))
      with stamp := b.stamp + 1 } : Block).report ⟨addrParityCode i, .fatal, r.master, r.addr, 0⟩ :=
  congrArg (fun c : Block => c.report _) (b.nextStamp_setPort i _)

/-- Settles O5: the request refused, the check itself, and the beats that follow. -/
theorem requestParityFailureIsReported : Obligations.RequestParityFailureIsReported := by
  unfold Obligations.RequestParityFailureIsReported
  refine ⟨fun s i r => ⟨fun room bad => ?_, fun room bad => ?_⟩, fun r dir => requestParityOk_eq_odd r dir,
    fun s i beat => ⟨exec_writeBeat_lost, fun hf whole => exec_writeBeat_none (Port.beatTarget_none hf whole),
      fun f later own hf apart older => ?_⟩⟩
  · rw [exec_writeRequest, Block.writeRequest_refused room bad, Block.refuseWrite_eq]
    cases i <;> rfl
  · refine ⟨refusedReadData s.block.stamp r, refusedReadData_length _ r, ?_⟩
    intro becomes
    have answered : becomes (({ s.block.port i with unanswered := (s.block.port i).unanswered
        ++ [⟨s.block.stamp, r.master, .read, false, none⟩] } : Port).answer s.block.stamp .error
          (refusedReadData s.block.stamp r)) := by
      simp only [becomes]
      rw [exec_readRequest, Block.readRequest_refused room bad, Block.refuseRead_eq]
      cases i <;> rfl
    refine ⟨answered, fun alone => ?_, fun before after q hl fresh hb hk hd => ?_⟩
    · rw [← Port.answer_new _ ⟨s.block.stamp, r.master, .read, false, none⟩ _ _ alone]
      exact answered
    · rw [← Port.answer_last_waits _ ⟨s.block.stamp, r.master, .read, false, none⟩ _ _ fresh hl hb hk hd]
      exact answered
  · have target := Port.beatTarget_failed hf older
    have last : f.left = 1 → exec (.writeBeat i beat) s = .next (s.withBlock
        (s.block.setPort i (({ s.block.port i with failing := later } : Port).answer f.stamp .error []))) :=
      fun h => by rw [exec_writeBeat_failed own target, Port.failedBeat_last hf apart h]
    refine ⟨fun more => ?_, last, fun before after q hl hn hs _ alone h => ?_⟩
    · rw [exec_writeBeat_failed own target, Port.failedBeat_more hf apart more]
    · rw [last h, ← hs,
        Port.answer_alone (p := { s.block.port i with failing := later }) .error [] hl hn alone]

end Sys2Proof.Machine
end

section
/-! SUPPORT. The beats of a buffered write (R130, R131, R134, R135, R146, R150; O6, O7). -/

namespace Sys2Proof.Machine

/-! ### Odd parity over the bytes of a beat (R146) -/

theorem beatByte_getLsbD (data : Beat) (k bit : Nat) (h : bit < 8) :
    (beatByte data k).getLsbD bit = data.getLsbD (8 * k + bit) := by
  simp [beatByte, h]

theorem foldl_parityBits (data : Beat) (l : List Nat) (acc : BeatBits) (k : Nat) (h : k < 16) :
    (l.foldl (fun acc k => if oddOnes (beatByte data k) then acc else acc ||| (1#16 <<< k)) acc).getLsbD k
      = (acc.getLsbD k || (decide (k ∈ l) && !oddOnes (beatByte data k))) := by
  induction l generalizing acc with
  | nil => simp
  | cons j l ih =>
    rw [List.foldl_cons, ih]
    by_cases hj : k = j
    · subst hj
      cases oddOnes (beatByte data k) <;> simp [h]
    · have apart : (!decide (k < j) && decide (k - j = 0)) = false := by simp; omega
      cases oddOnes (beatByte data j) <;> simp [hj, h, apart]

/-- Bit k of the parity bits makes the ones of byte k odd (R146). -/
theorem beatParity_getLsbD (data : Beat) (k : Nat) (h : k < 16) : (beatParity data).getLsbD k
    = decide (((List.range 8).countP fun bit => data.getLsbD (8 * k + bit)) % 2 = 0) := by
  have bits : (List.range 8).countP (fun bit => (beatByte data k).getLsbD bit)
      = (List.range 8).countP fun bit => data.getLsbD (8 * k + bit) :=
    List.countP_congr fun bit hb => by rw [beatByte_getLsbD data k bit (List.mem_range.mp hb)]
  rw [beatParity, foldl_parityBits data _ _ k h, oddOnes_eq_countP, bits]
  simp [h, ← decide_not, Nat.mod_two_not_eq_one]

/-! ### The beat joins its write (R146) -/

/-- A write with one beat more. -/
def BufferedWrite.withBeat (w : BufferedWrite) (x : WriteBeat) : BufferedWrite :=
  { w with taken := w.taken ++ [⟨x.data, x.strobes, decide (x.parity ≠ beatParity x.data)⟩] }

theorem beatIsBad_eq (x : WriteBeat) : beatIsBad x = decide (x.parity ≠ beatParity x.data) := by
  simp [beatIsBad, bne, Bool.beq_eq_decide_eq]

theorem BufferedWrite.withBeat_anyBad (w : BufferedWrite) (x : WriteBeat) : (w.withBeat x).taken.any (·.bad) = true ↔
    (∃ t ∈ w.taken, t.bad = true) ∨ x.parity ≠ beatParity x.data := by
  simp [BufferedWrite.withBeat]

section

variable {p : Port} {older later : List BufferedWrite} {w : BufferedWrite}

/-- The oldest write that lacks beats is the first in the buffer that is still taking. -/
theorem Port.beatTarget_oldest (hf : ∀ f ∈ p.failing, w.stamp < f.stamp) (hl : p.buffer = older ++ w :: later)
    (ho : ∀ v ∈ older, v.state ≠ .taking) (hw : w.state = .taking) : p.beatTarget = some (.buffered w) := by
  have first : p.buffer.find? (·.state == .taking) = some w := by
    rw [hl, List.find?_append, List.find?_eq_none.mpr]
    · simp [hw]
    · intro v hv; simp [ho v hv]
  cases failing : p.failing with
  | nil => simp [Port.beatTarget, failing, first]
  | cons f _ =>
    have younger : ¬ f.stamp < w.stamp := (hf f (by simp [failing])).not_gt
    simp [Port.beatTarget, failing, first, younger]

variable (b : Block) {i : PortId} {x : WriteBeat}

theorem Block.bufferedBeat_more (more : w.taken.length + 1 < beatCount w.beats) :
    b.bufferedBeat i w x = b.setPort i ((b.port i).setWrite (w.withBeat x)) := by
  simp [Block.bufferedBeat, BufferedWrite.withBeat, beatIsBad_eq, more]

theorem Block.bufferedBeat_last (last : w.taken.length + 1 = beatCount w.beats) :
    b.bufferedBeat i w x = b.lastBeat i (w.withBeat x) := by
  simp [Block.bufferedBeat, BufferedWrite.withBeat, beatIsBad_eq, last]

end

/-! ### The last beat (R130, R131, R134, R135) -/

section

variable (b : Block) (i : PortId) {w : BufferedWrite}

/-- The data parity failure of a write, at the severity of its policy (R131). -/
def parityFailure (i : PortId) (w : BufferedWrite) : LoggedError :=
  ⟨dataParityCode i, w.policy.severity, w.master, w.addr, 0⟩

theorem Block.lastBeat_good (kept : w.doomed = false) (good : w.taken.any (·.bad) = false) :
    b.lastBeat i w = b.setPort i ((b.port i).writeWaits i w) := by
  simp [Block.lastBeat, kept, good]

theorem Block.lastBeat_marked (kept : w.doomed = false) (bad : w.taken.any (·.bad) = true) (mark : w.policy = .mark) :
    b.lastBeat i w = (b.setPort i ((b.port i).writeWaits i w)).report (parityFailure i w) := by
  simp [Block.lastBeat, parityFailure, kept, bad, mark]

theorem Block.lastBeat_contained (bad : w.taken.any (·.bad) = true) (contain : w.policy = .contain) :
    b.lastBeat i w = (b.setPort i ((b.port i).discardWrite i w.stamp)).report (parityFailure i w) := by
  simp [Block.lastBeat, parityFailure, bad, contain]

theorem Block.lastBeat_doomed (doomed : w.doomed = true) (good : w.taken.any (·.bad) = false) :
    b.lastBeat i w = b.setPort i ((b.port i).discardWrite i w.stamp) := by
  simp [Block.lastBeat, doomed, good]

theorem Block.lastBeat_doomedBad (doomed : w.doomed = true) (bad : w.taken.any (·.bad) = true) :
    b.lastBeat i w = (b.setPort i ((b.port i).discardWrite i w.stamp)).report (parityFailure i w) := by
  simp [Block.lastBeat, parityFailure, doomed, bad]

end

/-! ### The write in its buffer (R150) -/

section

variable {p : Port} {i : PortId} {older later : List BufferedWrite} {w : BufferedWrite}

/-- A head that does not wait stays as it is. -/
theorem Port.settleHead_behind {v : BufferedWrite} {more : List BufferedWrite} (hl : p.buffer = v :: more)
    (h : i = .system → v.state ≠ .waiting) : p.settleHead i = p := by
  cases i with
  | capture => rfl
  | system => simp [Port.settleHead, hl, h rfl]

/-- A write that has all its beats is WAITING, and READY at the head of the system port's buffer (R150). -/
theorem Port.writeWaits_at (hl : p.buffer = older ++ w :: later) (hn : (p.buffer.map (·.stamp)).Nodup)
    (hb : i = .system → ∀ v more, older = v :: more → v.state ≠ .waiting) {w' : BufferedWrite}
    (hs : w'.stamp = w.stamp) : p.writeWaits i w' = { p with buffer :=
      older ++ { w' with state := if i = .system ∧ older = [] then .ready else .waiting } :: later } := by
  rw [Port.writeWaits, p.setWrite_at older later w { w' with state := .waiting } hl hn hs]
  cases older with
  | nil => cases i <;> simp [Port.settleHead]
  | cons v more =>
    rw [Port.settleHead_behind rfl fun system => hb system v more rfl]
    simp

/-- Answers and the buffer are apart. -/
theorem Port.answer_buffer (p : Port) (l : List BufferedWrite) (stamp : Nat) (resp : Response) (data : List Beat) :
    ({ p with buffer := l } : Port).answer stamp resp data = { p.answer stamp resp data with buffer := l } := by
  simp only [Port.answer]
  cases p.unanswered.find? (·.stamp == stamp) <;> rfl

theorem Port.settleHead_answer (p : Port) (stamp : Nat) (resp : Response) (data : List Beat) :
    (p.answer stamp resp data).settleHead i = (p.settleHead i).answer stamp resp data := by
  cases i with
  | capture => rfl
  | system => rw [Port.settleHead_system, (p.answer_frame _ _ _).1, Port.settleHead_system, ← Port.answer_buffer]

/-- The buffer without a write: at the system port a whole write that becomes the head is READY (R150). -/
def bufferWithout (i : PortId) (older later : List BufferedWrite) : List BufferedWrite :=
  match i, older, later with
  | .system, [], v :: more => (if v.state = .waiting then { v with state := .ready } else v) :: more
  | _, _, _ => older ++ later

theorem Port.discardWrite_at (hl : p.buffer = older ++ w :: later) (hn : (p.buffer.map (·.stamp)).Nodup)
    (hb : i = .system → ∀ v more, older = v :: more → v.state ≠ .waiting) : p.discardWrite i w.stamp =
      ({ p with buffer := bufferWithout i older later } : Port).answer w.stamp .okay [] := by
  rw [Port.discardWrite, Port.settleHead_answer, hl, buffer_filter_at _ _ _ (hl ▸ hn)]
  congr 1
  cases older with
  | nil =>
    cases i with
    | capture => rfl
    | system => cases later <;> simp [Port.settleHead_system, bufferWithout]
  | cons v more =>
    rw [Port.settleHead_behind rfl fun system => hb system v more rfl]
    cases i <;> rfl

end

/-- Settles O6: the write is found, and its new state is put in its place. -/
theorem beatJoinsTheOldestWrite : Obligations.BeatJoinsTheOldestWrite := by
  unfold Obligations.BeatJoinsTheOldestWrite
  refine ⟨fun s i x older later w own hf hl hn ho hw more => ?_,
    fun s i x older later w own hf hl hn ho hb hw kept last good parity => ?_, beatParity_getLsbD⟩
  · rw [exec_writeBeat_buffered own (Port.beatTarget_oldest hf hl ho hw), Block.bufferedBeat_more _ more,
      Port.setWrite_at _ older later w (w.withBeat x) hl hn rfl]
    rfl
  · have whole : (w.withBeat x).taken.any (·.bad) = false := by
      rw [← Bool.not_eq_true, BufferedWrite.withBeat_anyBad]
      rintro (⟨t, ht, bad⟩ | wrong)
      · simp [good t ht] at bad
      · exact wrong parity
    rw [exec_writeBeat_buffered own (Port.beatTarget_oldest hf hl ho hw), Block.bufferedBeat_last _ last,
      Block.lastBeat_good _ _ (w := w.withBeat x) kept whole, Port.writeWaits_at (w' := w.withBeat x) hl hn hb rfl]
    simp [BufferedWrite.withBeat, parity]

/-- Settles O7: the last beat by policy and doom, and the buffer without the write. -/
theorem badWriteFollowsItsPolicy : Obligations.BadWriteFollowsItsPolicy := by
  unfold Obligations.BadWriteFollowsItsPolicy
  intro s i x older later w own hf hl hn ho hb hw last bad failure without discarded
  have beat : exec (.writeBeat i x) s = .next (s.withBlock (s.block.lastBeat i (w.withBeat x))) := by
    rw [exec_writeBeat_buffered own (Port.beatTarget_oldest hf hl ho hw), Block.bufferedBeat_last _ last]
  have isBad : (w.withBeat x).taken.any (·.bad) = true ↔ bad := w.withBeat_anyBad x
  have gone : s.block.setPort i ((s.block.port i).discardWrite i (w.withBeat x).stamp) = discarded :=
    congrArg (s.block.setPort i) (Port.discardWrite_at (w := w) hl hn hb)
  have severity : ∀ policy, w.policy = policy → parityFailure i (w.withBeat x) = failure policy.severity := by
    rintro _ rfl
    rfl
  refine ⟨fun kept hbad mark => ?_, fun _ hbad contain => ?_,
    fun doomed => ⟨fun good => ?_, fun hbad mark => ?_, fun hbad contain => ?_⟩,
    fun before after q hu hun hs _ alone => ?_⟩
  · rw [beat, Block.lastBeat_marked _ _ (w := w.withBeat x) kept (isBad.mpr hbad) mark, severity _ mark,
      Port.writeWaits_at (w' := w.withBeat x) hl hn hb rfl]
    rfl
  · rw [beat, Block.lastBeat_contained _ _ (w := w.withBeat x) (isBad.mpr hbad) contain, severity _ contain, gone]
    rfl
  · rw [beat, Block.lastBeat_doomed _ _ (w := w.withBeat x) doomed (by rwa [← Bool.not_eq_true, isBad]), gone]
  · rw [beat, Block.lastBeat_doomedBad _ _ (w := w.withBeat x) doomed (isBad.mpr hbad), severity _ mark, gone]
    rfl
  · rw [beat, Block.lastBeat_doomedBad _ _ (w := w.withBeat x) doomed (isBad.mpr hbad), severity _ contain, gone]
    rfl
  · rw [← hs]
    exact Port.answer_alone (p := without) .okay [] hu hun alone

end Sys2Proof.Machine
end

section
/-! SUPPORT. The answers that containment gives, and what a port's entry does to the block (R134, R136, R143, R144;
O8). -/

namespace Sys2Proof.Machine

/-! ### Answers to all that is open (R149) -/

/-- The oldest open request is answered at once, with none behind it decided. -/
theorem Port.answer_front {p : Port} {q : OpenRequest} {rest : List OpenRequest} (resp : Response) (data : List Beat)
    (hl : p.unanswered = q :: rest) (hn : (p.unanswered.map (·.stamp)).Nodup) (isOpen : ∀ r ∈ rest, r.decided = none) :
    p.answer q.stamp resp data = { p with
      unanswered := rest
      given := p.given ++ [⟨q.master, q.direction, resp, data⟩] } := by
  have stay := releaseAnswers_undecided q.master q.direction rest fun r hr _ => isOpen r hr
  rw [p.answer_of_mem [] rest q resp data hl hn, releaseAnswers_go _ _ [] _ _ _ (by simp)
    (by simp [OpenRequest.sameKind]) rfl, stay]
  rfl

/-- Requests answered in the order in which they were taken are all answered at once. -/
theorem foldl_answer_all {α : Type} (q : α → OpenRequest) (resp : α → Response) (data : α → List Beat) (l : List α)
    (rest : List OpenRequest) (p : Port) (hl : p.unanswered = l.map q ++ rest)
    (hn : (p.unanswered.map (·.stamp)).Nodup) (isOpen : ∀ r ∈ p.unanswered, r.decided = none) :
    l.foldl (fun p x => p.answer (q x).stamp (resp x) (data x)) p = { p with
      unanswered := rest
      given := p.given ++ l.map fun x => ⟨(q x).master, (q x).direction, resp x, data x⟩ } := by
  induction l generalizing p with
  | nil => simp [← show p.unanswered = rest from hl]
  | cons x l ih =>
    have front : p.unanswered = q x :: (l.map q ++ rest) := hl
    rw [front, List.map_cons, List.nodup_cons] at hn
    rw [front, List.forall_mem_cons] at isOpen
    rw [List.foldl_cons, Port.answer_front _ _ front (by simpa [front] using hn) isOpen.2,
      ih _ rfl hn.2 isOpen.2]
    simp

/-- Answers and the list of reads are apart. -/
theorem Port.answer_reads (p : Port) (l : List ListedRead) (stamp : Nat) (resp : Response) (data : List Beat) :
    ({ p with reads := l } : Port).answer stamp resp data = { p.answer stamp resp data with reads := l } := by
  simp only [Port.answer]
  cases p.unanswered.find? (·.stamp == stamp) <;> rfl

theorem discardAnswers_reads (gone : List BufferedWrite) (l : List ListedRead) (p : Port) :
    gone.foldl (fun p w => p.answer w.stamp .okay []) { p with reads := l } =
      { gone.foldl (fun p w => p.answer w.stamp .okay []) p with reads := l } := by
  induction gone generalizing p with
  | nil => rfl
  | cons w gone ih => rw [List.foldl_cons, List.foldl_cons, Port.answer_reads, ih]

/-! ### The traffic of a port that is contained (R134) -/

/-- The writes that a contained port keeps: those still taking beats, to be discarded, and the one answered Inspect. -/
def Port.writesKept (p : Port) : List BufferedWrite :=
  (p.buffer.filter fun w => decide (w.state = .taking) || w.inspected).map
    fun w => if w.state = .taking then { w with doomed := true } else w

/-- The writes that it discards. -/
def Port.writesGone (p : Port) : List BufferedWrite :=
  p.buffer.filter fun w => !(decide (w.state = .taking) || w.inspected)

/-- A port CONTAINED, its discarded writes and unsent reads not yet answered. -/
def Port.cut (p : Port) : Port := { p with buffer := p.writesKept, reads := [], containment := .contained }

theorem Port.contain_eq (p : Port) : p.contain =
    p.reads.foldl Port.failRead (p.writesGone.foldl (fun p w => p.answer w.stamp .okay []) p.cut) := by
  rw [Port.cut, discardAnswers_reads _ _ { p with buffer := p.writesKept, containment := .contained }, Port.contain]
  simp only [discardAnswers_frame]
  rfl

/-- With no other request open, all that containment answers is answered at once. -/
theorem Port.contain_answers {p : Port} (hn : (p.unanswered.map (·.stamp)).Nodup)
    (hl : p.unanswered = p.writesGone.map (fun w => ⟨w.stamp, w.master, .write, false, none⟩)
      ++ p.reads.map (fun r => ⟨r.stamp, r.master, .read, true, none⟩)) :
    p.contain = { p.cut with
      unanswered := []
      given := p.given ++ p.writesGone.map (fun w => ⟨w.master, .write, .okay, []⟩)
        ++ p.reads.map fun r => ⟨r.master, .read, r.failResponse.response, r.failResponse.data r.beats⟩ } := by
  have isOpen : ∀ r ∈ p.unanswered, r.decided = none := by
    rw [hl]
    simp only [List.mem_append, List.mem_map]
    rintro _ (⟨w, -, rfl⟩ | ⟨r, -, rfl⟩) <;> rfl
  have readsOpen := fun r hr => isOpen r (hl ▸ List.mem_append_right _ hr)
  have readsApart : ((p.reads.map fun r => (⟨r.stamp, r.master, .read, true, none⟩ : OpenRequest)).map
      (·.stamp)).Nodup := by
    rw [hl, List.map_append] at hn
    exact hn.of_append_right
  rw [Port.contain_eq,
    foldl_answer_all (fun w : BufferedWrite => ⟨w.stamp, w.master, .write, false, none⟩) (fun _ => .okay) (fun _ => [])
      p.writesGone _ p.cut hl hn isOpen]
  exact (foldl_answer_all (fun r : ListedRead => ⟨r.stamp, r.master, .read, true, none⟩) (·.failResponse.response)
    (fun r => r.failResponse.data r.beats) p.reads [] _ (List.append_nil _).symm readsApart readsOpen)

/-! ### Entry into CONTAINED -/

section

variable {b : Block}

theorem Block.containPort_port {i : PortId} (opened : (b.port i).containment = .opened) :
    (b.containPort i).port i = (b.port i).contain := by
  cases i with
  | capture =>
    rw [Block.port_capture, Block.containPort_capture b opened, (Block.askRewrite_frame _).1]
    split <;> simp
  | system =>
    rw [Block.port_system, Block.containPort_system b opened, (Block.askRewrite_frame _).2.1]
    rfl

/-- Entry into CONTAINED asks for a status rewrite (R134, R194). -/
theorem Block.containPort_asks {i : PortId} (opened : (b.port i).containment = .opened) :
    (b.containPort i).askRewrite = b.containPort i := by
  cases i with
  | capture => rw [Block.containPort_capture b opened, Block.askRewrite_askRewrite]
  | system => rw [Block.containPort_system b opened, Block.askRewrite_askRewrite]

/-- The capture port's entry closes an OPEN frame (R40, R143). -/
theorem Block.containPort_tracker (opened : b.capture.containment = .opened) :
    (b.containPort .capture).tracker = ((b.setPort .capture b.capture.contain).closeFrame .truncated).tracker := by
  rw [Block.containPort_capture b opened]
  split <;> simp

/-- The system port's entry leaves frame, gate and capture port as they are. -/
theorem Block.containPort_system_beside (b : Block) : (b.containPort .system).capture = b.capture
    ∧ (b.containPort .system).tracker = b.tracker ∧ (b.containPort .system).line = b.line := by
  cases h : b.system.containment with
  | opened => rw [Block.containPort_system b h]; simp
  | contained => rw [Block.containPort_contained b .system h]; simp

end

/-- Settles O8: the port's own traffic, then what the capture port's entry sets off. -/
theorem containmentStopsThePort : Obligations.ContainmentStopsThePort := by
  unfold Obligations.ContainmentStopsThePort
  refine ⟨fun b i => ⟨b.containPort_contained i, fun opened => ?_⟩,
    fun b => ⟨fun opened => ?_, b.containPort_system_beside⟩⟩
  · intro kept gone failed
    have failRead : (fun (p : Port) (r : ListedRead) => p.answer r.stamp (failed r).1 (failed r).2) = Port.failRead := by
      funext p r
      simp only [failed, Port.failRead]
      cases r.failResponse <;> rfl
    rw [Block.containPort_port opened, failRead]
    refine ⟨Port.contain_eq _, fun hl hn => ?_, Block.containPort_asks opened⟩
    rw [Port.contain_answers hn hl]
    have answers : ∀ r : ListedRead, failed r = (r.failResponse.response, r.failResponse.data r.beats) := fun r => by
      simp only [failed]
      cases r.failResponse <;> rfl
    simp only [answers]
    rfl
  · refine ⟨?_, fun frame => ?_, fun frame => ?_, fun hold => ?_, fun hold => ?_⟩
    · rw [Block.containPort_capture b opened]
      split <;> simp
    · rw [Block.containPort_tracker opened, Block.closeFrame_opened (by simpa using frame)]
      simp
    · rw [Block.containPort_tracker opened, Block.closeFrame_other (by simpa using frame)]
      simp
    · rw [Block.containPort_capture b opened, if_pos hold]
      simp [Block.triggerHold_mode]
    · rw [Block.containPort_capture b opened, if_neg (by simp [hold])]
      simp

end Sys2Proof.Machine
end

section
/-! SUPPORT. Responses to forwarded requests and to slot writes (R139, R141, R162, R175, R176; O26, O28). -/

namespace Sys2Proof.Machine

/-! ### Responses to forwarded requests (O26) -/

theorem MemoryPort.entry_of_absent {m : MemoryPort} {tag : Nat} (h : ∀ e ∈ m.table, e.tag ≠ tag) :
    m.entry tag = none := by
  rw [MemoryPort.entry, List.find?_eq_none]
  exact fun e he => by simpa using h e he

/-- A read's data beats are passed on, and the answer to a write has none (R162). -/
theorem TableEntry.dataOf_eq {e : TableEntry} {data : List Beat}
    (hl : e.direction = .read → data.length = beatCount e.beats) :
    e.dataOf data = if e.direction = .read then data else [] := by
  cases hd : e.direction with
  | read => rw [TableEntry.dataOf_read hd (hl hd), if_pos rfl]
  | write => simp [TableEntry.dataOf, hd]

/-- Settles O26: the response goes to the port of its entry, and without an entry it goes nowhere. -/
theorem responseAnswersTheForwardedRequest : Obligations.ResponseAnswersTheForwardedRequest := by
  unfold Obligations.ResponseAnswersTheForwardedRequest
  refine ⟨?_, fun s tag resp data absent => ⟨?_, ?_⟩⟩
  · rintro s _ stamp data i before after e ht hn rfl ho hl answered
    have port : (({ s.block with memory := { s.block.memory with table := before ++ after } } : Block).port i) =
        s.block.port i := by cases i <;> rfl
    rw [execMemoryResponse_eq .okay data ht hn, execMemoryResponse_eq .error data ht hn]
    simp only [Block.route, ho, Block.answerPort, TableEntry.dataOf_eq hl, port]
    exact ⟨rfl, rfl⟩
  · show Host.Outcome.next (s.withBlock (s.block.memoryResponse tag resp data)) = _
    rw [Block.memoryResponse, MemoryPort.entry_of_absent absent]
    rfl
  · show Host.Outcome.next (s.withBlock (s.block.responseTimerExpiry tag)) = _
    rw [Block.responseTimerExpiry, MemoryPort.entry_of_absent absent]
    rfl

/-! ### The producer word (R175) -/

/-- The internal master and the numbering once a producer word of this value is to be written (R175; log entry 29). -/
def InternalMaster.takeWord (m : InternalMaster) (stamp : Nat) (value : Counter) : InternalMaster × Nat :=
  if m.queue.any (·.work.isProducerWord) then
    ({ m with queue := m.queue.map fun q =>
      if q.work.isProducerWord then { q with work := .producerWord value } else q }, stamp)
  else if m.waiters.any Waiter.isProducerWord then
    ({ m with waiters := m.waiters.map fun w => if w.isProducerWord then .producerWord value else w }, stamp)
  else if m.queue.length < 8 ∧ m.waiters = [] then (⟨m.queue ++ [⟨stamp, .producerWord value⟩], []⟩, stamp + 1)
  else ({ m with waiters := m.waiters ++ [.producerWord value] }, stamp)

theorem Block.writeProducerWord_eq (b : Block) : b.writeProducerWord =
    { b with
      master := (b.master.takeWord b.stamp b.writer.producer).1
      stamp := (b.master.takeWord b.stamp b.writer.producer).2 } := by
  unfold Block.writeProducerWord InternalMaster.takeWord
  simp only [Block.mayHandOver_iff]
  split_ifs with pending waiting room
  · rfl
  · rfl
  · simp only [Block.enqueue, room.2]
  · rfl

/-! ### The end of a slot write (R175, R176) -/

theorem Block.slotDone_eq {b : Block} {ring : Ring} {n : Nat} (hn : b.writer.slotWrite = some n)
    (hr : b.writer.ring = some ring) : b.slotDone n = ({ b with
      master := (b.master.takeWord b.stamp (b.writer.producer + 1)).1
      stamp := (b.master.takeWord b.stamp (b.writer.producer + 1)).2
      writer := { b.writer with queue := b.writer.queue.tail, producer := b.writer.producer + 1 } } :
        Block).slotWriteEnded ring := by
  rw [Block.slotDone, if_pos hn, Block.endSlotWrite_eq (by simpa using hr), Block.writeProducerWord_eq]

/-- A report of a failed internal request leaves ring and slot write as they are. -/
theorem Block.report_ownError (b : Block) {e : LoggedError} (h : e.code = .mOwnError) :
    (b.report e).writer.slotWrite = b.writer.slotWrite ∧ (b.report e).writer.ring = b.writer.ring := by
  obtain ⟨q, k, hw⟩ := b.logError_writer e
  simp [b.report_plain (.inr (.inl h)), hw]

/-- Settles O28: the response reaches the slot write in progress, and one given up is passed over. -/
theorem slotWriteEndsAsItsResponse : Obligations.SlotWriteEndsAsItsResponse := by
  unfold Obligations.SlotWriteEndsAsItsResponse
  intro s data before after e n ht hn ho removed reported
  have okay : exec (.memoryResponse e.tag .okay data) s = .next (s.withBlock (removed.slotDone n)) := by
    rw [execMemoryResponse_eq .okay data ht hn]
    simp only [Block.route, ho, Block.ownerDone]
    rfl
  have error : exec (.memoryResponse e.tag .error data) s = .next (s.withBlock (reported.slotFailed n)) := by
    rw [execMemoryResponse_eq .error data ht hn]
    simp only [Block.route, ho, Block.ownerFails]
    rfl
  obtain ⟨slot, ring⟩ : reported.writer.slotWrite = s.block.writer.slotWrite
      ∧ reported.writer.ring = s.block.writer.ring := removed.report_ownError rfl
  refine ⟨?_, fun hs => ⟨?_, ?_⟩⟩
  · intro configured hs hr value isWord queue waiters master
    have words : isWord = Waiter.isProducerWord := by
      funext w
      cases w <;> rfl
    have taken : master = s.block.master.takeWord s.block.stamp value := by
      simp only [master, waiters, words]
      rfl
    constructor
    · rw [okay, Block.slotDone_eq (b := removed) hs hr, taken]
    · rw [error, Block.slotFailed_eq (slot.trans hs) (ring.trans hr)]
  · rw [okay, Block.slotDone, if_neg hs]
  · rw [error, Block.slotFailed, if_neg fun h => hs (slot.symm.trans h)]

end Sys2Proof.Machine
end

section
/-! SUPPORT. CLEAR_LOG and RESUME_PORT (R128, R137; O39). -/

namespace Sys2Proof.Machine

/-! ### Codes -/

theorem sourceOfCode_none {code : Byte} (h1 : code ≠ 1) (h2 : code ≠ 2) (h3 : code ≠ 3) (h4 : code ≠ 4) :
    sourceOfCode code.toNat = none := by
  unfold sourceOfCode
  split
  · next h => exact absurd (BitVec.eq_of_toNat_eq h) h1
  · next h => exact absurd (BitVec.eq_of_toNat_eq h) h2
  · next h => exact absurd (BitVec.eq_of_toNat_eq h) h3
  · next h => exact absurd (BitVec.eq_of_toNat_eq h) h4
  · rfl

theorem portOfCode_none {code : Byte} (h1 : code ≠ 1) (h2 : code ≠ 2) : portOfCode code.toNat = none := by
  unfold portOfCode
  split
  · next h => exact absurd (BitVec.eq_of_toNat_eq h) h1
  · next h => exact absurd (BitVec.eq_of_toNat_eq h) h2
  · rfl

theorem sourceOfCode_of_mem {code : Byte} {src : LogSource}
    (h : (code, src) ∈ [((1 : Byte), LogSource.capture), (2, .system), (3, .memory), (4, .line)]) :
    sourceOfCode code.toNat = some src := by
  simp only [List.mem_cons, Prod.mk.injEq, List.not_mem_nil, or_false] at h
  rcases h with ⟨rfl, rfl⟩ | ⟨rfl, rfl⟩ | ⟨rfl, rfl⟩ | ⟨rfl, rfl⟩ <;> rfl

theorem portOfCode_of_mem {code : Byte} {i : PortId}
    (h : (code, i) ∈ [((1 : Byte), PortId.capture), (2, .system)]) : portOfCode code.toNat = some i := by
  simp only [List.mem_cons, Prod.mk.injEq, List.not_mem_nil, or_false] at h
  rcases h with ⟨rfl, rfl⟩ | ⟨rfl, rfl⟩ <;> rfl

/-! ### What the owner of the command decides -/

section

variable (b : Block) (code : Byte)

theorem Block.decide_clearLog {src : LogSource} (h : sourceOfCode code.toNat = some src) :
    (b.copied 6 [⟨4, 1, code.toNat⟩]).decideCommand 6 false =
      ({ b.copied 6 [⟨4, 1, code.toNat⟩] with logs := b.logs.setLog src ⟨none, false⟩ }, .done) := by
  simp only [Block.decideCommand, Block.clearLog, b.copied_byte, h, Block.copied_frame, ErrorLog.fresh]

theorem Block.decide_clearLog_none (h : sourceOfCode code.toNat = none) :
    (b.copied 6 [⟨4, 1, code.toNat⟩]).decideCommand 6 false = (b.copied 6 [⟨4, 1, code.toNat⟩], .badArgument) := by
  simp only [Block.decideCommand, Block.clearLog, b.copied_byte, h]

theorem Block.decide_resumePort_none (h : portOfCode code.toNat = none) :
    (b.copied 7 [⟨4, 1, code.toNat⟩]).decideCommand 7 false = (b.copied 7 [⟨4, 1, code.toNat⟩], .badArgument) := by
  simp only [Block.decideCommand, Block.resumePort, b.copied_byte, h]

theorem Block.decide_resumePort_fatal {i : PortId} (h : portOfCode code.toNat = some i)
    (fatal : (b.logs.log (portLog i)).holdsFatal = true) :
    (b.copied 7 [⟨4, 1, code.toNat⟩]).decideCommand 7 false = (b.copied 7 [⟨4, 1, code.toNat⟩], .wrongState) := by
  simp only [Block.decideCommand, Block.resumePort, b.copied_byte, h, Block.copied_frame, fatal, if_true]

/-- A port whose log holds no FATAL error is opened; a rewrite is asked for when it was CONTAINED. -/
theorem Block.decide_resumePort {i : PortId} (h : portOfCode code.toNat = some i)
    (mild : (b.logs.log (portLog i)).holdsFatal = false) :
    let resumed := (b.copied 7 [⟨4, 1, code.toNat⟩]).setPort i { b.port i with containment := .opened }
    ∃ c, (c = resumed ∨ c = resumed.askRewrite)
      ∧ (b.copied 7 [⟨4, 1, code.toNat⟩]).decideCommand 7 false = (c, .done) := by
  intro resumed
  simp only [Block.decideCommand, Block.resumePort, b.copied_byte, h, Block.copied_frame, mild, Bool.false_eq_true,
    if_false]
  split
  · next opened =>
    have same : resumed = b.copied 7 [⟨4, 1, code.toNat⟩] := by
      have port : ({ b.port i with containment := .opened } : Port) = (b.copied 7 [⟨4, 1, code.toNat⟩]).port i := by
        rw [← opened]; simp
      exact (congrArg _ port).trans (Block.setPort_port _ i)
    exact ⟨_, .inl same.symm, rfl⟩
  · exact ⟨_, .inr rfl, rfl⟩

end

/-- A command row whose owner changes a port alone, whether it asks for a rewrite or not (R185, R194). -/
theorem Block.commandWrite_port (b : Block) {kind : Nat} (fields : List SlotField) (inHand : Bool) (h0 : kind ≠ 0)
    (h : kind < 2 ^ 32) {c : Block} {i : PortId} {p : Port} {o : CommandOutcome}
    (hd : (b.copied kind fields).decideCommand kind inHand = (c, o))
    (hc : c = (b.copied kind fields).setPort i p ∨ c = ((b.copied kind fields).setPort i p).askRewrite) :
    b.commandWrite kind fields inHand = { b.askRewrite.setPort i p with decoder := b.decoder.took kind fields o } := by
  have asked := Block.askRewrite_congr (b := (b.copied kind fields).setPort i p) (c := b) (by simp) (by simp)
  rcases hc with rfl | rfl
  · rw [b.commandWrite_decided kind fields inHand h0 h _ o hd (.inl (by simp))]
    cases i <;> apply Block.eq_of_parts <;> simp [Block.copied, Decoder.took, Block.setPort]
  · rw [b.commandWrite_decided kind fields inHand h0 h _ o hd (.inr asked)]
    cases i <;> apply Block.eq_of_parts <;> simp [Block.copied, Decoder.took, Block.setPort]

theorem ErrorLog.holdsFatal_of_held {l : ErrorLog} {e : LoggedError} (h : l.held = some e) (hs : e.severity = .fatal) :
    l.holdsFatal = true := by
  simp [ErrorLog.holdsFatal, h, hs]

theorem ErrorLog.not_holdsFatal {l : ErrorLog} (h : ∀ e, l.held = some e → e.severity ≠ .fatal) :
    l.holdsFatal = false := by
  unfold ErrorLog.holdsFatal
  split
  · next e he => simpa using h e he
  · rfl

/-- Settles O39, by the code of the source or port. -/
theorem clearLogAndResumePortRecover : Obligations.ClearLogAndResumePortRecover := by
  unfold Obligations.ClearLogAndResumePortRecover
  have clear : ∀ (s : State) (code : Byte), exec (.clearLog code) s =
      .next (s.withBlock (s.block.commandWrite 6 [⟨4, 1, code.toNat⟩] false)) := fun _ _ => rfl
  have resume : ∀ (s : State) (code : Byte), exec (.resumePort code) s =
      .next (s.withBlock (s.block.commandWrite 7 [⟨4, 1, code.toNat⟩] false)) := fun _ _ => rfl
  refine ⟨fun s code src hm => ?_, fun s code i hm capture system => ?_, fun s code h1 h2 h3 h4 => ?_,
    fun s code h1 h2 => ?_, fun s code e hs held => ?_⟩
  · rw [clear, s.block.commandWrite_decided 6 _ false (by decide) (by decide) _ _
      (s.block.decide_clearLog code (sourceOfCode_of_mem hm)) (.inl (by simp)), ErrorLogs.setLog_eq]
    congr 2
    apply Block.eq_of_parts <;> simp [Block.copied, Decoder.took]
  · have mild : (s.block.logs.log (portLog i)).holdsFatal = false := by
      cases i with
      | capture => exact ErrorLog.not_holdsFatal (capture rfl)
      | system => exact ErrorLog.not_holdsFatal (system rfl)
    obtain ⟨c, hc, decided⟩ := s.block.decide_resumePort code (portOfCode_of_mem hm) mild
    rw [resume, s.block.commandWrite_port _ false (by decide) (by decide) decided hc]
  · rw [clear, s.block.commandWrite_same 6 _ false (by decide) (by decide) _
      (s.block.decide_clearLog_none code (sourceOfCode_none h1 h2 h3 h4))]
  · rw [resume, s.block.commandWrite_same 7 _ false (by decide) (by decide) _
      (s.block.decide_resumePort_none code (portOfCode_none h1 h2))]
  · obtain ⟨i, hi, fatal⟩ : ∃ i, portOfCode code.toNat = some i
        ∧ (s.block.logs.log (portLog i)).holdsFatal = true := by
      rcases held with ⟨rfl, held⟩ | ⟨rfl, held⟩
      · exact ⟨.capture, rfl, ErrorLog.holdsFatal_of_held held hs⟩
      · exact ⟨.system, rfl, ErrorLog.holdsFatal_of_held held hs⟩
    rw [resume, s.block.commandWrite_same 7 _ false (by decide) (by decide) _
      (s.block.decide_resumePort_fatal code hi fatal)]

end Sys2Proof.Machine
end

section
/-! SUPPORT. The grant of an upstream write (R150, R151, R153, R154, R161, R163, R189; O21). -/

namespace Sys2Proof.Machine

section

variable {b : Block} {i : PortId} {w : BufferedWrite} {rest : List BufferedWrite} {r : ListedRead}

/-! ### What an upstream port presents (R153, R154) -/

theorem Block.freeWrite_ready (hl : (b.port i).buffer = w :: rest) (ready : w.state = .ready)
    (room : b.memory.outstanding (portSource i) .write < 8)
    (apart : b.memory.conflicts (byteRange w.addr w.beats) .write = false) : b.freeWrite i = some w := by
  simp [Block.freeWrite, hl, ready, Config.outstandingWrites, room, apart]

/-- The head read may go: no older write, in the buffer or in the internal queue, holds it back, and it meets the
conditions of the memory port. -/
theorem Block.freeRead_iff : b.freeRead i = some r ↔ ∃ more, (b.port i).reads = r :: more
    ∧ (¬ ∃ v ∈ (b.port i).buffer, v.stamp < r.stamp
        ∧ (byteRange v.addr v.beats).overlaps (byteRange r.addr r.beats) = true)
    ∧ (¬ (i = .system ∧ ∃ q ∈ b.master.queue, q.stamp < r.stamp ∧ q.work.direction = .write
        ∧ (b.workRange q.work).overlaps (byteRange r.addr r.beats) = true))
    ∧ b.memory.outstanding (portSource i) .read < 16
    ∧ b.memory.conflicts (byteRange r.addr r.beats) .read = false := by
  unfold Block.freeRead
  cases hr : (b.port i).reads with
  | nil => simp
  | cons x more =>
    have mayGo : (!(b.port i).olderWrite x && !(i == .system && b.olderInternalWrite x)
        && decide (b.memory.outstanding (portSource i) .read < Config.outstandingReads)
        && !b.memory.conflicts (byteRange x.addr x.beats) .read) = true ↔
        (¬ ∃ v ∈ (b.port i).buffer, v.stamp < x.stamp
          ∧ (byteRange v.addr v.beats).overlaps (byteRange x.addr x.beats) = true)
        ∧ (¬ (i = .system ∧ ∃ q ∈ b.master.queue, q.stamp < x.stamp ∧ q.work.direction = .write
          ∧ (b.workRange q.work).overlaps (byteRange x.addr x.beats) = true))
        ∧ b.memory.outstanding (portSource i) .read < 16
        ∧ b.memory.conflicts (byteRange x.addr x.beats) .read = false := by
      simp only [Bool.and_eq_true, Bool.not_eq_true', ← Bool.not_eq_true, Port.olderWrite, Block.olderInternalWrite,
        List.any_eq_true, decide_eq_true_eq, beq_iff_eq, and_assoc]
      rfl
    simp only [mayGo]
    constructor
    · intro h
      split at h
      · next go =>
        cases h
        exact ⟨more, rfl, go⟩
      · cases h
    · rintro ⟨_, h, go⟩
      cases h
      exact if_pos go

/-- The head write goes when it may, and the head read may not or was taken after it. -/
theorem Block.portPresents_write (hw : b.freeWrite i = some w) (first : ∀ r, b.freeRead i = some r → w.stamp < r.stamp) :
    b.portPresents i = some (.write i w) := by
  unfold Block.portPresents
  cases hr : b.freeRead i with
  | none => simp only [hw]
  | some r => simp only [hw, if_pos (first r hr)]

theorem Block.presents_portSource (i : PortId) : b.presents (portSource i) = b.portPresents i := by
  cases i <;> rfl

/-! ### The write sent (R150, R151, R158, R159) -/

theorem Port.settleHead_tail (p : Port) (i : PortId) (rest : List BufferedWrite) :
    ({ p with buffer := rest } : Port).settleHead i = { p with buffer := bufferWithout i [] rest } := by
  cases i with
  | capture => rfl
  | system =>
    rw [Port.settleHead_system]
    cases rest <;> rfl

theorem Block.forwardWrite_eq (hl : (b.port i).buffer = w :: rest) (tag : Nat) : b.forwardWrite i w tag =
    { b.setPort i { b.port i with buffer := bufferWithout i [] rest } with
      memory := b.memory.send (.upstream i w.stamp) (w.request tag) } := by
  rw [Block.forwardWrite, hl, List.tail_cons, Port.settleHead_tail]
  cases i <;> rfl

/-! ### What follows the grant (R132, R163, R189) -/

theorem Block.afterWrite_outside {inHand : Bool} (h : b.inWindow w = false) : b.afterWrite i w inHand = b := by
  simp [Block.afterWrite, h]

theorem Block.afterWrite_capture {inHand : Bool} (h : b.inWindow w = true) :
    b.afterWrite .capture w inHand = b.report ⟨.cMailboxForeign, .minor, w.master, w.addr, 0⟩ := by
  simp [Block.afterWrite, h]

theorem Block.afterWrite_bad {inHand : Bool} (bad : ∃ t ∈ w.taken, t.bad = true) :
    b.afterWrite .system w inHand = b := by
  simp [Block.afterWrite, List.any_eq_true.mpr bad]

theorem Block.afterWrite_copied {inHand : Bool} (h : b.inWindow w = true) (good : ∀ t ∈ w.taken, t.bad = false) :
    b.afterWrite .system w inHand = b.decodeCopy (b.decoder.copyOf w) inHand := by
  have whole : w.taken.any (·.bad) = false := by simpa using good
  simp [Block.afterWrite, h, whole]

end

/-- Settles O21: the port's turn gives its head write, which is sent and then reported or copied. -/
theorem grantForwardsTheHeadWrite : Obligations.GrantForwardsTheHeadWrite := by
  unfold Obligations.GrantForwardsTheHeadWrite
  intro s pick inHand i w rest tag turn hl ready reads room apart hp sent window inWindow
  have first : ∀ r, s.block.freeRead i = some r → w.stamp < r.stamp := fun r hr => by
    obtain ⟨more, hreads, noOlder, noInternal, places, free⟩ := Block.freeRead_iff.mp hr
    rcases reads r more hreads with h | h | h | h | h
    · exact h
    · exact absurd h noOlder
    · exact absurd h noInternal
    · exact absurd places h.not_gt
    · simp [free] at h
  have presented : s.block.presents (portSource i) = some (.write i w) := by
    rw [Block.presents_portSource, Block.portPresents_write (Block.freeWrite_ready hl ready room apart) first]
  have forwarded : s.block.forwardWrite i w tag = sent := by
    rw [Block.forwardWrite_eq hl]
    cases i <;> cases rest <;> rfl
  have granted : exec (.arbiterGrant pick inHand) s = .next (s.withBlock (sent.afterWrite i w inHand)) := by
    show Host.Outcome.next (s.withBlock (s.block.arbiterGrant pick inHand)) = _
    rw [Block.arbiterGrant_of_granted (Block.granted_of_inTurn turn presented) hp, Block.grant, forwarded]
  have decoder : sent.decoder = s.block.decoder := by cases i <;> rfl
  have inside : sent.inWindow w = inWindow := by
    rw [Block.inWindow, decoder]
    rfl
  refine ⟨fun outside => ?_, fun h hi => ?_, fun h hi bad => ?_, fun h hi good => ?_⟩
  · rw [granted, Block.afterWrite_outside (inside.trans outside)]
  · subst hi
    rw [granted, Block.afterWrite_capture (inside.trans h)]
  · subst hi
    rw [granted, Block.afterWrite_bad bad]
  · subst hi
    rw [granted, Block.afterWrite_copied (inside.trans h) good, decoder]

end Sys2Proof.Machine
end

section
/-! SUPPORT. The pass-through path, its two ports and the memory port, over every command: which operations leave it as
it was, and all that a command can do to it (R146 to R165). -/

namespace Sys2Proof.Machine

variable (b : Block)

/-! ### Reports that contain no port (R127) -/

/-- Only an error of parity can contain a port. -/
@[simp] theorem Block.report_ports {e : LoggedError}
    (h : e.code ∉ [ErrorCode.cAddrParity, .cDataParity, .sAddrParity, .sDataParity]) :
    (b.report e).capture = b.capture ∧ (b.report e).system = b.system := by
  unfold Block.report Block.followReport
  split <;> (try split) <;> simp_all

/-! ### Frames of the ports, operation by operation -/

@[simp] theorem Block.leadingEdge_ports :
    b.leadingEdge.capture = b.capture ∧ b.leadingEdge.system = b.system := by
  simp only [Block.leadingEdge]; split_ifs <;> simp

@[simp] theorem Block.dueAction_ports (x : Board) :
    (b.dueAction x).capture = b.capture ∧ (b.dueAction x).system = b.system := by
  unfold Block.dueAction; split <;> simp

@[simp] theorem Block.dueBoards_ports (n : Nat) :
    (Block.dueBoards n b).capture = b.capture ∧ (Block.dueBoards n b).system = b.system := by
  induction n generalizing b with
  | zero => simp [Block.dueBoards]
  | succ n ih => unfold Block.dueBoards; split <;> (try split_ifs) <;> simp [ih]

@[simp] theorem Block.positionChanged_ports :
    b.positionChanged.capture = b.capture ∧ b.positionChanged.system = b.system := by
  simp only [Block.positionChanged, Block.timeoutTest]; split_ifs <;> simp

@[simp] theorem Block.handleSegment_ports (p : Program) (u : Burst) (g : Segment) :
    (Block.handleSegment p u g b).capture = b.capture ∧ (Block.handleSegment p u g b).system = b.system := by
  unfold Block.handleSegment; split <;> (try split_ifs) <;> simp [Block.orderBreak]

@[simp] theorem Block.reportLaneRange_ports (u : Burst) :
    (Block.reportLaneRange u b).capture = b.capture ∧ (Block.reportLaneRange u b).system = b.system := by
  simp only [Block.reportLaneRange]; split_ifs <;> simp

@[simp] theorem Block.illegalSample_ports (x : Bool × Bool) :
    (b.illegalSample x).capture = b.capture ∧ (b.illegalSample x).system = b.system := by
  simp [Block.illegalSample]

@[simp] theorem Block.applyConsumer_ports (u : ConsumerUpdate) :
    (b.applyConsumer u).capture = b.capture ∧ (b.applyConsumer u).system = b.system := by
  unfold Block.applyConsumer; split <;> (try split_ifs) <;> simp

@[simp] theorem Block.takeConsumer_ports (u : ConsumerUpdate) :
    (b.takeConsumer u).capture = b.capture ∧ (b.takeConsumer u).system = b.system := by
  unfold Block.takeConsumer; split <;> simp

@[simp] theorem Block.endSlotWrite_ports :
    b.endSlotWrite.capture = b.capture ∧ b.endSlotWrite.system = b.system := by
  simp only [Block.endSlotWrite, Block.applyHeld]; split <;> simp

@[simp] theorem Block.slotDone_ports (n : Nat) :
    (b.slotDone n).capture = b.capture ∧ (b.slotDone n).system = b.system := by
  simp only [Block.slotDone]; split_ifs <;> simp

@[simp] theorem Block.slotFailed_ports (n : Nat) :
    (b.slotFailed n).capture = b.capture ∧ (b.slotFailed n).system = b.system := by
  simp only [Block.slotFailed]; split_ifs <;> simp

/-! ### Frames of the path, command by command -/

/-- Both ports and the memory port are as they were. -/
structure Block.PathSame (b t : Block) : Prop where
  capture : t.capture = b.capture
  system : t.system = b.system
  memory : t.memory = b.memory

variable {b} in
theorem Block.PathSame.port {t : Block} (h : b.PathSame t) (i : PortId) : t.port i = b.port i := by
  cases i
  · exact h.capture
  · exact h.system

theorem Block.segment_path : b.PathSame b.segment := by
  have reset : ∀ c : Block, c.PathSame c.resetAfterSegment := fun c => by
    unfold Block.resetAfterSegment; split_ifs <;> constructor <;> simp
  unfold Block.segment
  split
  · next u p _ _ =>
    simp only
    split <;> constructor <;> simp [(reset _).capture, (reset _).system, (reset _).memory]
  · exact ⟨rfl, rfl, rfl⟩

theorem Block.closingWork_path : b.PathSame b.closingWork := by
  unfold Block.closingWork Block.resetAfterClosing
  split
  · split_ifs <;> constructor <;> simp
  · exact ⟨rfl, rfl, rfl⟩

theorem Block.encoderSample_path (x : Bool × Bool) : b.PathSame (b.encoderSample x) := by
  unfold Block.encoderSample
  split
  · exact ⟨rfl, rfl, rfl⟩
  · split_ifs
    · exact ⟨rfl, rfl, rfl⟩
    · split
      · constructor <;> simp [Block.legalStep]
      · constructor <;> simp

theorem Block.illegalStep_path : b.PathSame b.illegalStep := by
  unfold Block.illegalStep
  split <;> constructor <;> simp

theorem Block.edgeTo_path (high : Bool) : b.PathSame (b.edgeTo high) := by
  unfold Block.edgeTo
  split_ifs <;> constructor <;> simp

theorem Block.edgeSample_path (high : Bool) : b.PathSame (b.edgeSample high) := by
  unfold Block.edgeSample
  split_ifs
  · exact ⟨rfl, rfl, rfl⟩
  · exact ⟨rfl, rfl, rfl⟩
  · exact b.edgeTo_path high

theorem Block.boardEdgeLeading_path : b.PathSame b.boardEdgeLeading := by
  unfold Block.boardEdgeLeading
  split_ifs
  · exact ⟨rfl, rfl, rfl⟩
  · exact b.edgeTo_path _

theorem Block.boardEdgeTrailing_path : b.PathSame b.boardEdgeTrailing := by
  unfold Block.boardEdgeTrailing
  split_ifs
  · exact b.edgeTo_path _
  · exact ⟨rfl, rfl, rfl⟩

theorem Block.fetchReadIssue_path : b.PathSame b.fetchReadIssue := by
  unfold Block.fetchReadIssue
  split
  · exact ⟨rfl, rfl, rfl⟩
  · split_ifs <;> constructor <;> simp

theorem Block.ringSlotWrite_path : b.PathSame b.ringSlotWrite := by
  unfold Block.ringSlotWrite
  split
  · exact ⟨rfl, rfl, rfl⟩
  · split_ifs <;> constructor <;> simp

@[simp] theorem Block.handWaiter_path (w : Waiter) : (b.handWaiter w).capture = b.capture
    ∧ (b.handWaiter w).system = b.system ∧ (b.handWaiter w).memory = b.memory := by
  unfold Block.handWaiter
  split <;> (try split) <;> simp

theorem Block.internalHandover_path : b.PathSame b.internalHandover := by
  unfold Block.internalHandover
  generalize b.master.waiters = l
  induction l generalizing b with
  | nil => exact ⟨rfl, rfl, rfl⟩
  | cons w rest ih =>
    unfold Block.drainWaiters
    simp only
    split_ifs
    · obtain ⟨capture, system, memory⟩ := ih (Block.handWaiter { b with master := { b.master with waiters := rest } } w)
      exact ⟨by simpa using capture, by simpa using system, by simpa using memory⟩
    · exact ⟨rfl, rfl, rfl⟩

/-! ### All that a command can do to the path -/

/-- What a command can make of the path: nothing; time passes; a copied write reaches the mailbox decoder; or the
command is one of the path's own. -/
inductive Block.PathChange (b : Block) : Instr → Block → Prop
  | same {c : Instr} {t : Block} (h : b.PathSame t) : b.PathChange c t
  | elapses {c : Instr} {t : Block} (n : Nat) (h : (b.elapse n).PathSame t) : b.PathChange c t
  | copied {c : Instr} (copy : MailboxCopy) (inHand : Bool) : b.PathChange c (b.decodeCopy copy inHand)
  | fullReset (kind : FullResetKind) (straps : BitVec 3) (contain : Bool) :
      b.PathChange (.fullReset kind straps contain) (b.fullReset kind straps contain)
  | writeRequest (i : PortId) (r : Request) : b.PathChange (.writeRequest i r) (b.writeRequest i r)
  | readRequest (i : PortId) (r : Request) : b.PathChange (.readRequest i r) (b.readRequest i r)
  | writeBeat (i : PortId) (x : WriteBeat) : b.PathChange (.writeBeat i x) (b.writeBeat i x)
  | burstOffer : b.PathChange .burstOffer b.burstOffer
  | arbiterGrant (pick : Nat) (inHand : Bool) : b.PathChange (.arbiterGrant pick inHand) (b.arbiterGrant pick inHand)
  | memoryResponse (tag : Nat) (r : Response) (data : List Beat) :
      b.PathChange (.memoryResponse tag r data) (b.memoryResponse tag r data)
  | responseTimerExpiry (tag : Nat) : b.PathChange (.responseTimerExpiry tag) (b.responseTimerExpiry tag)

theorem Block.deadTimeEnd_path (c : Instr) : b.PathChange c b.deadTimeEnd := by
  unfold Block.deadTimeEnd
  split
  · next left _ _ => exact .elapses left ⟨rfl, rfl, rfl⟩
  · exact .same ⟨rfl, rfl, rfl⟩

theorem exec_path {c : Instr} {s t : State} (h : exec c s = .next t) : s.block.PathChange c t.block := by
  have copied : ∀ {copy inHand}, (s.onBlock fun b => b.decodeCopy copy inHand) = .next t →
      s.block.PathChange c t.block := fun hf => onBlock_block hf ▸ .copied _ _
  have command : ∀ {kind fields inHand}, (s.onBlock fun b => b.commandWrite kind fields inHand) = .next t →
      s.block.PathChange c t.block := fun hf => copied hf
  cases c with
  | fullReset kind straps contain => cases h; exact .fullReset kind straps contain
  | writeRequest i r => cases h; exact .writeRequest i r
  | readRequest i r => cases h; exact .readRequest i r
  | writeBeat i x => cases h; exact .writeBeat i x
  | burstOffer => cases h; exact .burstOffer
  | arbiterGrant pick inHand => cases h; exact .arbiterGrant pick inHand
  | memoryResponse tag r data => cases h; exact .memoryResponse tag r data
  | responseTimerExpiry tag => cases h; exact .responseTimerExpiry tag
  | deadTimeEnd => cases h; exact s.block.deadTimeEnd_path _
  | segment => cases h; exact .same s.block.segment_path
  | closing => cases h; exact .same s.block.closingWork_path
  | encoderStep x y => cases h; exact .same (s.block.encoderSample_path (x, y))
  | illegalStep => cases h; exact .same s.block.illegalStep_path
  | boardEdgeTrailing => cases h; exact .same s.block.boardEdgeTrailing_path
  | boardEdgeLeading => cases h; exact .same s.block.boardEdgeLeading_path
  | boardEdgeSample x => cases h; exact .same (s.block.edgeSample_path x)
  | fetchReadIssue => cases h; exact .same s.block.fetchReadIssue_path
  | ringSlotWrite => cases h; exact .same s.block.ringSlotWrite_path
  | internalHandover => cases h; exact .same s.block.internalHandover_path
  | mailboxShadowWrite bytes => exact copied h
  | consumerUpdate m a bytes => exact copied h
  | loadProgram a => exact command h
  | abortLoad => exact command h
  | setRing a n i => exact command h
  | setLine a => exact command h
  | setPortPolicy i p f l => exact command h
  | clearLog n => exact command h
  | resumePort n => exact command h
  | releaseGate => exact command h
  | inspectionReset inHand => exact command h
  | unknownKind k => exact command h

/-! ### The mailbox (R164, R188) -/

/-- What no command of the mailbox touches at a port: its reads, its open requests and the answers given. -/
def Port.traffic (p : Port) : List ListedRead × List OpenRequest × List Answer := (p.reads, p.unanswered, p.given)

/-- A change that leaves the traffic of both ports as it was, and the memory port but for its response limit. -/
structure Block.PathSettings (b t : Block) : Prop where
  traffic : ∀ i, (t.port i).traffic = (b.port i).traffic
  memory : ∃ limit, t.memory = { b.memory with responseLimit := limit }

variable {b} in
theorem Block.PathSettings.of_same {t : Block} (h : b.PathSame t) : b.PathSettings t :=
  ⟨fun i => by rw [h.port], b.memory.responseLimit, h.memory⟩

variable {b} in
theorem Block.PathSettings.trans {c t : Block} (h : b.PathSettings c) (h' : c.PathSettings t) : b.PathSettings t := by
  obtain ⟨limit, memory⟩ := h.memory
  obtain ⟨limit', memory'⟩ := h'.memory
  exact ⟨fun i => (h'.traffic i).trans (h.traffic i), limit', by rw [memory', memory]⟩

/-- The settings of one port replaced. -/
theorem Block.setPort_settings (i : PortId) {p : Port} (h : p.traffic = (b.port i).traffic) :
    b.PathSettings (b.setPort i p) := by
  refine ⟨fun j => ?_, b.memory.responseLimit, by simp⟩
  by_cases hj : j = i
  · subst hj
    simpa using h
  · rw [b.setPort_other hj]

theorem Block.setPortPolicy_settings : b.PathSettings b.setPortPolicy.1 := by
  unfold Block.setPortPolicy
  simp only
  split
  · next i policy fail _ _ _ =>
    have put := b.setPort_settings i (p := { b.port i with policy := policy, failResponse := fail }) rfl
    split_ifs
    · exact put
    · exact put.trans ⟨fun j => by cases j <;> rfl, b.decoder.argument 8 2, rfl⟩
  · exact .of_same ⟨rfl, rfl, rfl⟩

theorem Block.resumePort_settings : b.PathSettings b.resumePort.1 := by
  have same : b.PathSettings b := .of_same ⟨rfl, rfl, rfl⟩
  unfold Block.resumePort
  split
  · exact same
  · next i _ =>
    split_ifs
    · exact same
    · split
      · exact same
      · exact (b.setPort_settings i (p := { b.port i with containment := .opened }) rfl).trans
          (.of_same ⟨by simp, by simp, by simp⟩)

theorem Block.setLine_path : b.PathSame b.setLine.1 := by
  have gate : ∀ (c : Block) g, c.PathSame (c.setGateMode g) := fun c g => by
    unfold Block.setGateMode
    split <;> constructor <;> simp
  unfold Block.setLine
  split
  · exact ⟨rfl, rfl, rfl⟩
  · next config g _ =>
    split_ifs
    · exact ⟨rfl, rfl, rfl⟩
    · exact ⟨rfl, rfl, rfl⟩
    · obtain ⟨capture, system, memory⟩ := gate { b with line := { b.line with config := config } } g
      exact ⟨capture, system, memory⟩

theorem Block.inspectionReset_path (inHand : Bool) : b.PathSame (b.inspectionReset inHand).1 := by
  unfold Block.inspectionReset
  split_ifs <;> constructor <;> simp

theorem Block.decideCommand_settings (kind : Nat) (inHand : Bool) :
    b.PathSettings (b.decideCommand kind inHand).1 := by
  unfold Block.decideCommand
  split
  · refine .of_same ?_
    simp only [Block.loadProgram]
    split
    · exact ⟨rfl, rfl, rfl⟩
    · split_ifs <;> constructor <;> simp
  · refine .of_same ?_
    unfold Block.abortLoad
    split <;> constructor <;> simp
  · refine .of_same ?_
    simp only [Block.setRing]
    split_ifs <;> constructor <;> simp
  · exact .of_same b.setLine_path
  · exact b.setPortPolicy_settings
  · refine .of_same ?_
    unfold Block.clearLog
    split <;> constructor <;> simp
  · exact b.resumePort_settings
  · refine .of_same ?_
    unfold Block.releaseGate
    split <;> constructor <;> simp
  · exact .of_same (b.inspectionReset_path inHand)
  · exact .of_same ⟨rfl, rfl, rfl⟩

/-- What the mailbox decoder makes of a copied write. -/
theorem Block.decodeCopy_settings (copy : MailboxCopy) (inHand : Bool) :
    b.PathSettings (b.decodeCopy copy inHand) := by
  have recorded : ∀ (c : Block) kind o, c.PathSettings (c.recordCommand kind o) := fun _ _ _ =>
    .of_same ⟨by simp, by simp, by simp⟩
  have command : ∀ c : Block, c.PathSettings (c.takeCommand inHand) := fun c =>
    (c.decideCommand_settings c.decoder.kind inHand).trans (recorded _ _ _)
  have consumed : b.PathSame (if copy.enablesWord then
      (b.mergeCopy copy).takeConsumer ⟨(b.mergeCopy copy).decoder.consumerValue, copy.master, copy.addr⟩
      else b.mergeCopy copy) := by
    split_ifs <;> constructor <;> simp
  simp only [Block.decodeCopy]
  split_ifs at consumed ⊢
  · exact Block.PathSettings.trans (.of_same consumed) (command _)
  · exact .of_same consumed
  · exact Block.PathSettings.trans (.of_same consumed) (command _)
  · exact .of_same consumed

end Sys2Proof.Machine
end

section
/-! SUPPORT. What the sources present to the arbiter and what a grant sends (R153, R154, R156 to R161). -/

namespace Sys2Proof.Machine

/-! ### Tags (R158) -/

theorem MemoryPort.mem_freeTags {m : MemoryPort} {tag : Nat} :
    tag ∈ m.freeTags ↔ tag < 56 ∧ ∀ e ∈ m.table, e.tag ≠ tag := by
  simp [MemoryPort.freeTags, Config.tags]

/-- The tag chosen is one of those not held. -/
theorem MemoryPort.pickTag_free {m : MemoryPort} {pick tag : Nat} (h : m.pickTag pick = some tag) :
    tag < 56 ∧ ∀ e ∈ m.table, e.tag ≠ tag :=
  MemoryPort.mem_freeTags.1 (List.mem_of_getElem? h)

/-- No tag can be chosen only when all of them are held. -/
theorem MemoryPort.pickTag_none {m : MemoryPort} {pick : Nat} :
    m.pickTag pick = none ↔ ∀ tag < 56, ∃ e ∈ m.table, e.tag = tag := by
  have empty : m.pickTag pick = none ↔ m.freeTags = [] := by
    rw [MemoryPort.pickTag, List.getElem?_eq_none_iff]
    constructor
    · intro h
      by_contra ne
      exact absurd (Nat.mod_lt pick (List.length_pos_of_ne_nil ne)) h.not_gt
    · intro h
      simp [h]
  rw [empty, List.eq_nil_iff_forall_not_mem]
  simp only [MemoryPort.mem_freeTags, not_and, not_forall, not_not, exists_prop]

/-! ### Conflicts and shares (R159, R160) -/

theorem Range.overlaps_iff (x y : Range) : x.overlaps y = true ↔ x.lo ≤ y.hi ∧ y.lo ≤ x.hi := by
  simp [Range.overlaps]

/-- A request conflicts with none in the table when those that it overlaps are reads like itself. -/
theorem MemoryPort.conflicts_eq_false {m : MemoryPort} {r : Range} {dir : Direction} : m.conflicts r dir = false ↔
    ∀ e ∈ m.table, e.range.overlaps r = true → e.direction = .read ∧ dir = .read := by
  have reads : ∀ d : Direction, d = .read ↔ d ≠ .write := fun d => by cases d <;> simp
  simp only [MemoryPort.conflicts, List.any_eq_false, reads]
  simp

/-- When a request conflicts with none in the table, said of the addresses. -/
theorem MemoryPort.conflicts_iff {m : MemoryPort} {range : Range} {dir : Direction} :
    m.conflicts range dir = false ↔ ∀ e ∈ m.table,
      (byteRange e.addr e.beats).lo ≤ range.hi ∧ range.lo ≤ (byteRange e.addr e.beats).hi →
      e.direction = .read ∧ dir = .read := by
  simp only [MemoryPort.conflicts_eq_false, Range.overlaps_iff]
  rfl

/-- The requests that a source may have outstanding in one direction at an upstream port (R159). -/
def outstandingShare : Direction → Nat
  | .read => 16
  | .write => 8

/-- The source may have one more request of this direction outstanding (R159). -/
def MemoryPort.HasRoom (m : MemoryPort) (dir : Direction) : Source → Prop
  | .internal => m.outstanding .internal .read + m.outstanding .internal .write < 8
  | .capture => m.outstanding .capture dir < outstandingShare dir
  | .system => m.outstanding .system dir < outstandingShare dir

theorem MemoryPort.hasRoom_portSource (m : MemoryPort) (dir : Direction) (i : PortId) :
    m.HasRoom dir (portSource i) ↔ m.outstanding (portSource i) dir < outstandingShare dir := by
  cases i <;> rfl

theorem portSource_upstream (i : PortId) (n : Nat) : (EntryOwner.upstream i n).source = portSource i := by
  cases i <;> rfl

/-! ### What the sources present (R153, R154, R156, R157) -/

section

variable {b : Block} {i : PortId} {w : BufferedWrite} {r : ListedRead} {q : InternalRequest} {x : Presented}

/-- The head write may go: it is READY and meets the conditions of the memory port. -/
theorem Block.freeWrite_iff : b.freeWrite i = some w ↔ ∃ more, (b.port i).buffer = w :: more ∧ w.state = .ready
    ∧ b.memory.outstanding (portSource i) .write < 8
    ∧ b.memory.conflicts (byteRange w.addr w.beats) .write = false := by
  unfold Block.freeWrite
  cases hb : (b.port i).buffer with
  | nil => simp
  | cons v rest =>
    simp only [Option.ite_none_right_eq_some, Option.some.injEq, List.cons.injEq, Bool.and_eq_true, beq_iff_eq,
      decide_eq_true_eq, Bool.not_eq_true', and_assoc]
    constructor
    · rintro ⟨ready, room, apart, rfl⟩
      exact ⟨rest, rfl, rfl, ready, room, apart⟩
    · rintro ⟨_, rfl, -, ready, room, apart⟩
      exact ⟨ready, room, apart, rfl⟩

/-- The head of the internal queue may go. -/
theorem Block.masterPresents_iff : b.masterPresents = some x ↔ ∃ q more, x = .internal q ∧ b.master.queue = q :: more
    ∧ b.memory.outstanding .internal .read + b.memory.outstanding .internal .write < 8
    ∧ b.memory.conflicts (b.workRange q.work) q.work.direction = false := by
  unfold Block.masterPresents
  cases hq : b.master.queue with
  | nil => simp
  | cons v rest =>
    simp only [Option.ite_none_right_eq_some, Option.some.injEq, List.cons.injEq, Bool.not_eq_true',
      Config.outstandingInternal]
    constructor
    · rintro ⟨go, rfl⟩
      exact ⟨v, rest, rfl, ⟨rfl, rfl⟩, go⟩
    · rintro ⟨_, _, rfl, ⟨rfl, -⟩, go⟩
      exact ⟨go, rfl⟩

/-- The request is one that may go: a head write or head read of its port, or the head of the internal queue. -/
def Block.Free (b : Block) : Presented → Prop
  | .write i w => b.freeWrite i = some w
  | .read i r => b.freeRead i = some r
  | .internal q => b.masterPresents = some (.internal q)

/-- The owner that the table names for a request. -/
def Presented.owner : Presented → EntryOwner
  | .write i w => .upstream i w.stamp
  | .read i r => .upstream i r.stamp
  | .internal q => q.owner

theorem InternalRequest.owner_source (q : InternalRequest) : q.owner.source = .internal := by
  unfold InternalRequest.owner
  split <;> rfl

theorem Block.portPresents_free (h : b.portPresents i = some x) : b.Free x ∧ x.owner.source = portSource i := by
  unfold Block.portPresents at h
  split at h
  · cases h
  · next w hw _ => cases h; exact ⟨hw, portSource_upstream i _⟩
  · next r _ hr => cases h; exact ⟨hr, portSource_upstream i _⟩
  · next w r hw hr =>
    split at h
    · cases h; exact ⟨hw, portSource_upstream i _⟩
    · cases h; exact ⟨hr, portSource_upstream i _⟩

/-- A source presents a request of its own, and one that may go. -/
theorem Block.presents_free {src : Source} (h : b.presents src = some x) : b.Free x ∧ x.owner.source = src := by
  cases src with
  | capture => exact Block.portPresents_free h
  | system => exact Block.portPresents_free h
  | internal =>
    obtain ⟨q, _, rfl, -⟩ := Block.masterPresents_iff.1 h
    exact ⟨h, q.owner_source⟩

/-- The request granted is presented by a source. -/
theorem Block.granted_presented (h : b.granted = some x) : ∃ src, b.presents src = some x := by
  unfold Block.granted at h
  simp only at h
  split at h
  · next first => cases h; exact ⟨_, first⟩
  · next second => cases h; exact ⟨_, second⟩
  · exact ⟨_, h⟩

theorem Block.granted_free (h : b.granted = some x) : b.Free x := by
  obtain ⟨_, presented⟩ := Block.granted_presented h
  exact (Block.presents_free presented).1

/-! ### What a grant sends (R158, R159) -/

/-- The request that memory gets for one that is presented. -/
def Block.sentFor (b : Block) (x : Presented) (tag : Nat) : SentRequest :=
  match x with
  | .write _ w => w.request tag
  | .read _ r => r.request tag
  | .internal q => (b.countStatus q.work).workRequest q.work tag

@[simp] theorem Block.sentFor_tag (x : Presented) (tag : Nat) : (b.sentFor x tag).tag = tag := by
  cases x <;> rfl

theorem Block.workAddr_countStatus (work other : InternalWork) :
    (b.countStatus other).workAddr work = b.workAddr work := by
  cases work <;> simp [Block.workAddr]

/-- A request that may go has room in its source's share, and conflicts with none that is outstanding. -/
theorem Block.Free.meets (h : b.Free x) (tag : Nat) : let q := b.sentFor x tag
    b.memory.HasRoom q.direction x.owner.source
      ∧ b.memory.conflicts (byteRange q.addr q.beats) q.direction = false := by
  cases x with
  | write i w =>
    obtain ⟨-, -, -, room, apart⟩ := Block.freeWrite_iff.1 h
    exact ⟨portSource_upstream i _ ▸ (b.memory.hasRoom_portSource .write i).2 room, apart⟩
  | read i r =>
    obtain ⟨-, -, -, -, room, apart⟩ := Block.freeRead_iff.1 h
    exact ⟨portSource_upstream i _ ▸ (b.memory.hasRoom_portSource .read i).2 room, apart⟩
  | internal q =>
    obtain ⟨_, _, hq, -, room, apart⟩ := Block.masterPresents_iff.1 h
    cases hq
    refine ⟨?_, ?_⟩
    · rw [Presented.owner, InternalRequest.owner_source]
      exact room
    · show b.memory.conflicts (byteRange ((b.countStatus q.work).workAddr q.work) q.work.beats) _ = false
      rw [Block.workAddr_countStatus]
      exact apart

end

variable (b : Block)

/-- What follows the grant of a write touches the settings of the path alone. -/
theorem Block.afterWrite_settings (i : PortId) (w : BufferedWrite) (inHand : Bool) :
    b.PathSettings (b.afterWrite i w inHand) := by
  have same : b.PathSettings b := .of_same ⟨rfl, rfl, rfl⟩
  unfold Block.afterWrite
  split
  · cases i with
    | capture => exact .of_same ⟨by simp, by simp, by simp⟩
    | system =>
      simp only
      split
      · exact same
      · exact b.decodeCopy_settings _ inHand
  · exact same

theorem Block.forwardWrite_memory (i : PortId) (w : BufferedWrite) (tag : Nat) :
    (b.forwardWrite i w tag).memory = b.memory.send (.upstream i w.stamp) (w.request tag) := by
  simp [Block.forwardWrite]

theorem Block.forwardRead_memory (i : PortId) (r : ListedRead) (tag : Nat) :
    (b.forwardRead i r tag).memory = b.memory.send (.upstream i r.stamp) (r.request tag) := by
  simp [Block.forwardRead]

theorem Block.forwardInternal_memory (q : InternalRequest) (tag : Nat) :
    (b.forwardInternal q tag).memory = b.memory.send q.owner ((b.countStatus q.work).workRequest q.work tag) := by
  simp [Block.forwardInternal]

/-- A grant sends one request; the write that it sends may set the response limit anew (R164). -/
theorem Block.grant_memory (x : Presented) (tag : Nat) (inHand : Bool) :
    ∃ limit, (b.grant x tag inHand).memory =
      { b.memory.send x.owner (b.sentFor x tag) with responseLimit := limit } := by
  cases x with
  | write i w =>
    obtain ⟨limit, after⟩ := ((b.forwardWrite i w tag).afterWrite_settings i w inHand).memory
    exact ⟨limit, by rw [Block.grant, after, b.forwardWrite_memory]; rfl⟩
  | read i r => exact ⟨b.memory.responseLimit, b.forwardRead_memory i r tag⟩
  | internal q => exact ⟨b.memory.responseLimit, b.forwardInternal_memory q tag⟩

/-- ARBITER_GRANT sends a request that may go with a tag that is free, or changes nothing (R161). -/
theorem Block.arbiterGrant_cases (pick : Nat) (inHand : Bool) :
    b.arbiterGrant pick inHand = b
    ∨ ∃ x tag, b.Free x ∧ b.memory.pickTag pick = some tag ∧ b.arbiterGrant pick inHand = b.grant x tag inHand := by
  unfold Block.arbiterGrant
  split
  · next x tag granted picked => exact .inr ⟨x, tag, Block.granted_free granted, picked, rfl⟩
  · exact .inl rfl

end Sys2Proof.Machine
end

section
/-! SUPPORT. The outstanding table and the requests sent over every command (R158 to R161; O47, O54). -/

namespace Sys2Proof.Machine

/-! ### Changes that send nothing -/

/-- An entry of the table apart from its timer. -/
def TableEntry.untimed (e : TableEntry) : TableEntry := { e with timer := 0 }

/-- Nothing has been sent: the requests outstanding are all or some of those before, whatever is left of their
timers. -/
structure MemoryPort.SendsNone (m t : MemoryPort) : Prop where
  table : (t.table.map TableEntry.untimed).Sublist (m.table.map TableEntry.untimed)
  sent : t.sent = m.sent

theorem MemoryPort.SendsNone.of_same {m t : MemoryPort} (table : t.table = m.table) (sent : t.sent = m.sent) :
    m.SendsNone t := ⟨table ▸ .refl _, sent⟩

theorem MemoryPort.SendsNone.trans {m n t : MemoryPort} (h : m.SendsNone n) (h' : n.SendsNone t) : m.SendsNone t :=
  ⟨h'.table.trans h.table, h'.sent.trans h.sent⟩

variable {m t : MemoryPort} {b c : Block}

theorem Block.PathSame.sendsNone (h : b.PathSame c) : b.memory.SendsNone c.memory := h.memory ▸ .of_same rfl rfl

theorem Block.PathSettings.sendsNone (h : b.PathSettings c) : b.memory.SendsNone c.memory := by
  obtain ⟨limit, memory⟩ := h.memory
  exact memory ▸ .of_same rfl rfl

/-- Timers run down. -/
theorem Block.elapse_sendsNone (b : Block) (n : Nat) : b.memory.SendsNone (b.elapse n).memory := by
  refine ⟨?_, rfl⟩
  have untimed : TableEntry.untimed ∘ (fun e : TableEntry => { e with timer := e.timer - n }) =
      TableEntry.untimed := rfl
  simp only [Block.elapse, List.map_map, untimed, List.Sublist.refl]

/-- A request leaves the table (R159, R162). -/
theorem Block.retire_sendsNone (b : Block) (tag : Nat) : b.memory.SendsNone (b.retire tag).memory :=
  ⟨List.filter_sublist.map _, rfl⟩

/-- Full reset empties the table. -/
theorem Block.fullReset_sendsNone (b : Block) (kind : FullResetKind) (straps : BitVec 3) (contain : Bool) :
    b.memory.SendsNone (b.fullReset kind straps contain).memory :=
  ⟨List.nil_sublist _, rfl⟩

theorem Block.writeRequest_memory (b : Block) (i : PortId) (r : Request) :
    (b.writeRequest i r).memory = b.memory := by
  unfold Block.writeRequest
  split_ifs <;> simp [Block.takeWrite, Block.refuseWrite, Block.reportAddrParity]

theorem Block.readRequest_memory (b : Block) (i : PortId) (r : Request) : (b.readRequest i r).memory = b.memory := by
  unfold Block.readRequest
  split_ifs
  · simp only [Block.takeRead]
    split <;> simp
  · simp [Block.refuseRead, Block.reportAddrParity]
  · rfl

theorem Block.writeBeat_memory (b : Block) (i : PortId) (x : WriteBeat) : (b.writeBeat i x).memory = b.memory := by
  unfold Block.writeBeat
  split
  · rfl
  · split
    · rfl
    · simp
    · simp only [Block.bufferedBeat, Block.lastBeat]
      split_ifs <;> simp

theorem Block.burstOffer_memory (b : Block) : b.burstOffer.memory = b.memory := by
  unfold Block.burstOffer
  split
  · split_ifs
    · split <;> simp
    · rfl
  · rfl

theorem Block.ownerDone_memory (b : Block) (o : EntryOwner) (data : List Beat) :
    (b.ownerDone o data).memory = b.memory := by
  unfold Block.ownerDone
  split <;> simp

theorem Block.ownerFails_memory (b : Block) (o : EntryOwner) : (b.ownerFails o).memory = b.memory := by
  unfold Block.ownerFails
  split <;> simp

theorem Block.memoryResponse_sendsNone (b : Block) (tag : Nat) (r : Response) (data : List Beat) :
    b.memory.SendsNone (b.memoryResponse tag r data).memory := by
  unfold Block.memoryResponse
  split
  · exact .of_same rfl rfl
  · next e _ =>
    have routed : ((b.retire tag).route e r data).memory = (b.retire tag).memory := by
      unfold Block.route
      split <;> simp [Block.ownerDone_memory, Block.ownerFails_memory]
    exact routed ▸ b.retire_sendsNone tag

theorem Block.responseTimerExpiry_sendsNone (b : Block) (tag : Nat) :
    b.memory.SendsNone (b.responseTimerExpiry tag).memory := by
  unfold Block.responseTimerExpiry
  split
  · exact .of_same rfl rfl
  · next e _ =>
    have timedOut : ∀ c : Block, (c.timeOut e).memory = c.memory := fun c => by
      unfold Block.timeOut
      simp only
      split <;> simp [Block.ownerFails_memory]
    rw [timedOut]
    exact (b.elapse_sendsNone e.timer).trans (Block.retire_sendsNone _ tag)

/-- Every command but a grant sends nothing. -/
theorem Block.PathChange.sendsNone {i : Instr} (h : b.PathChange i c) :
    b.memory.SendsNone c.memory ∨ ∃ pick inHand, i = .arbiterGrant pick inHand ∧ c = b.arbiterGrant pick inHand := by
  have of_memory : ∀ {d : Block}, d.memory = b.memory → b.memory.SendsNone d.memory :=
    fun same => same ▸ .of_same rfl rfl
  cases h with
  | same h => exact .inl h.sendsNone
  | elapses n h => exact .inl ((b.elapse_sendsNone n).trans h.sendsNone)
  | copied copy inHand => exact .inl (b.decodeCopy_settings copy inHand).sendsNone
  | fullReset kind straps contain => exact .inl (b.fullReset_sendsNone kind straps contain)
  | writeRequest i r => exact .inl (of_memory (b.writeRequest_memory i r))
  | readRequest i r => exact .inl (of_memory (b.readRequest_memory i r))
  | writeBeat i x => exact .inl (of_memory (b.writeBeat_memory i x))
  | burstOffer => exact .inl (of_memory b.burstOffer_memory)
  | arbiterGrant pick inHand => exact .inr ⟨pick, inHand, rfl, rfl⟩
  | memoryResponse tag r data => exact .inl (b.memoryResponse_sendsNone tag r data)
  | responseTimerExpiry tag => exact .inl (b.responseTimerExpiry_sendsNone tag)

/-- Settles O47: the arbiter's grant is the only change of the path that sends a request. -/
theorem onlyGrantsSendRequests : Obligations.OnlyGrantsSendRequests := by
  unfold Obligations.OnlyGrantsSendRequests
  intro c s t h
  rcases (exec_path h).sendsNone with none | ⟨pick, inHand, hc, ht⟩
  · exact .inl none.sent
  · rcases s.block.arbiterGrant_cases pick inHand with same | ⟨x, tag, -, -, granted⟩
    · exact .inl (by rw [ht, same])
    · obtain ⟨limit, memory⟩ := s.block.grant_memory x tag inHand
      exact .inr ⟨pick, inHand, s.block.sentFor x tag, hc, by rw [ht, granted, memory]; rfl⟩

/-! ### The table stays sound (O54) -/

theorem MemoryPort.outstanding_untimed (m : MemoryPort) (src : Source) (dir : Direction) : m.outstanding src dir =
    (m.table.map TableEntry.untimed).countP fun e => e.owner.source == src && e.direction == dir := by
  rw [List.countP_map, MemoryPort.outstanding, ← List.countP_eq_length_filter]
  rfl

/-- Without a request sent, no source has more outstanding. -/
theorem MemoryPort.SendsNone.outstanding_le (h : m.SendsNone t) (src : Source) (dir : Direction) :
    t.outstanding src dir ≤ m.outstanding src dir := by
  rw [t.outstanding_untimed, m.outstanding_untimed]
  exact h.table.countP_le

theorem MemoryPort.TableSound.of_sendsNone (h : m.TableSound) (hs : m.SendsNone t) : t.TableSound where
  tags e he := by
    obtain ⟨x, hx, same⟩ := List.mem_map.1 (hs.table.subset (List.mem_map_of_mem he))
    have tag : x.untimed.tag = e.untimed.tag := by rw [same]
    exact tag ▸ h.tags x hx
  distinct := by
    have tags := hs.table.map TableEntry.tag
    rw [List.map_map, List.map_map] at tags
    exact tags.nodup h.distinct
  writes i := (hs.outstanding_le _ _).trans (h.writes i)
  reads i := (hs.outstanding_le _ _).trans (h.reads i)
  internal := (Nat.add_le_add (hs.outstanding_le _ _) (hs.outstanding_le _ _)).trans h.internal
  apart := by
    have untimed : (m.table.map TableEntry.untimed).Pairwise fun e f =>
        e.range.overlaps f.range = true → e.direction = .read ∧ f.direction = .read := List.pairwise_map.2 h.apart
    exact List.pairwise_map.1 (untimed.sublist hs.table)

theorem MemoryPort.outstanding_send (m : MemoryPort) (o : EntryOwner) (q : SentRequest) (src : Source)
    (dir : Direction) : (m.send o q).outstanding src dir =
      m.outstanding src dir + if o.source = src ∧ q.direction = dir then 1 else 0 := by
  simp only [MemoryPort.outstanding, MemoryPort.send, List.filter_append, List.length_append, List.filter_singleton]
  by_cases sent : o.source = src ∧ q.direction = dir
  · simp [sent]
  · have other : (o.source == src && q.direction == dir) = false := by simpa using sent
    simp [sent, other]

/-- A request sent with a free tag, within its source's share and without a conflict (R158 to R160). -/
theorem MemoryPort.TableSound.send (h : m.TableSound) {o : EntryOwner} {q : SentRequest}
    (tag : q.tag < 56 ∧ ∀ e ∈ m.table, e.tag ≠ q.tag) (room : m.HasRoom q.direction o.source)
    (apart : m.conflicts (byteRange q.addr q.beats) q.direction = false) : (m.send o q).TableSound := by
  have share : ∀ i dir, m.outstanding (portSource i) dir ≤ outstandingShare dir →
      (m.send o q).outstanding (portSource i) dir ≤ outstandingShare dir := fun i dir within => by
    rw [m.outstanding_send]
    split
    · next sent =>
      obtain ⟨hs, rfl⟩ := sent
      exact (m.hasRoom_portSource _ i).1 (hs ▸ room)
    · exact within
  obtain ⟨small, fresh⟩ := tag
  refine ⟨fun e he => ?_, ?_, fun i => share i .write (h.writes i), fun i => share i .read (h.reads i), ?_, ?_⟩
  · rcases List.mem_append.1 he with he | he
    · exact h.tags e he
    · rw [List.mem_singleton.1 he]
      exact small
  · simp only [MemoryPort.send, List.map_append, List.map_cons, List.map_nil, List.nodup_append]
    refine ⟨h.distinct, by simp, fun a ha d hd => ?_⟩
    obtain ⟨e, he, rfl⟩ := List.mem_map.1 ha
    exact List.mem_singleton.1 hd ▸ fresh e he
  · have within := h.internal
    rw [m.outstanding_send, m.outstanding_send]
    by_cases internal : o.source = .internal
    · have room : m.outstanding .internal .read + m.outstanding .internal .write < 8 := by
        rw [internal] at room
        exact room
      cases q.direction <;> simp [internal] <;> omega
    · simpa [internal] using within
  · refine List.pairwise_append.2 ⟨h.apart, List.pairwise_singleton _ _, fun e he f hf overlap => ?_⟩
    rw [List.mem_singleton.1 hf] at overlap ⊢
    exact MemoryPort.conflicts_eq_false.1 apart e he overlap

theorem Block.arbiterGrant_tableSound (h : b.memory.TableSound) (pick : Nat) (inHand : Bool) :
    (b.arbiterGrant pick inHand).memory.TableSound := by
  rcases b.arbiterGrant_cases pick inHand with same | ⟨x, tag, free, picked, granted⟩
  · rwa [same]
  · obtain ⟨limit, memory⟩ := b.grant_memory x tag inHand
    obtain ⟨room, apart⟩ := free.meets tag
    have sent := h.send (o := x.owner) (by simpa using MemoryPort.pickTag_free picked) room apart
    rw [granted, memory]
    exact sent.of_sendsNone (.of_same rfl rfl)

/-- Settles O54: what is sent has a free tag, room and no conflict, and without a request sent the table only
shrinks. -/
theorem everyStepKeepsTheTableSound : Obligations.EveryStepKeepsTheTableSound := by
  unfold Obligations.EveryStepKeepsTheTableSound
  intro s t sound h
  unfold step at h
  split at h
  · cases h
    exact sound.of_sendsNone (s.block.elapse_sendsNone 1)
  · next rest _ =>
    rcases (exec_path (s := { s with pending := rest }) h).sendsNone with none | ⟨pick, inHand, -, ht⟩
    · exact sound.of_sendsNone none
    · exact ht ▸ Block.arbiterGrant_tableSound sound pick inHand

end Sys2Proof.Machine
end

section
/-! SUPPORT. The order of a port's answers (R149; O9). -/

namespace Sys2Proof.Machine

/-- Settles O9: the request is marked, and the marked run of its kind released. -/
theorem answersKeepTheRequestOrder : Obligations.AnswersKeepTheRequestOrder := by
  unfold Obligations.AnswersKeepTheRequestOrder
  intro p before after q resp data hl hn undecided marked
  have answered := p.answer_of_mem before after q resp data hl hn
  have own : ({ q with decided := some ⟨q.master, q.direction, resp, data⟩ } : OpenRequest).sameKind q.master
      q.direction = true := (OpenRequest.sameKind_iff _ _ _).2 ⟨rfl, rfl⟩
  refine ⟨fun first later => ?_, fun earlier waiting => ?_, fun run rest hm decided stop => ?_⟩
  · rw [answered, releaseAnswers_go _ _ _ _ _ _ first own rfl, releaseAnswers_undecided _ _ _ later]
  · obtain ⟨r, hr, kind, -⟩ := earlier
    rw [answered, releaseAnswers_held _ _ _ _ ⟨r, hr, kind⟩ waiting, List.append_nil]
  · have released := releaseAnswers_run q.master q.direction run rest decided stop
    rw [← hm] at released
    rw [answered, released]

end Sys2Proof.Machine
end

section
/-! SUPPORT. The grant of the head read (R153 to R156; O22), and which source is granted (R161; O24). -/

namespace Sys2Proof.Machine

/-! ### The grant of the head read (R153, R154, R156) -/

section

variable {b : Block} {i : PortId} {r : ListedRead}

/-- The head read goes when it may, and the head write may not or was taken after it. -/
theorem Block.portPresents_read (hr : b.freeRead i = some r) (first : ∀ w, b.freeWrite i = some w → r.stamp ≤ w.stamp) :
    b.portPresents i = some (.read i r) := by
  unfold Block.portPresents
  cases hw : b.freeWrite i with
  | none => simp only [hr]
  | some w => simp only [hr, if_neg (first w hw).not_gt]

theorem Block.forwardRead_eq {rest : List ListedRead} (hl : (b.port i).reads = r :: rest) (tag : Nat) :
    b.forwardRead i r tag = { b.setPort i { b.port i with reads := rest } with
      memory := b.memory.send (.upstream i r.stamp) (r.request tag) } := by
  rw [Block.forwardRead, hl, List.tail_cons]
  cases i <;> rfl

/-- The memory port apart, a block has the ports it had. -/
theorem Block.port_withMemory (b : Block) (m : MemoryPort) (i : PortId) :
    ({ b with memory := m } : Block).port i = b.port i := by
  cases i <;> rfl

theorem Block.forwardWrite_traffic (b : Block) (j : PortId) (w : BufferedWrite) (tag : Nat) (i : PortId) :
    ((b.forwardWrite j w tag).port i).traffic = (b.port i).traffic := by
  rw [Block.forwardWrite, Block.port_withMemory]
  refine (b.setPort_settings j ?_).traffic i
  simp [Port.traffic]

/-- A grant leaves the read list of a port whose head read may not go. -/
theorem Block.grant_reads {x : Presented} (free : b.Free x) (held : b.freeRead i = none) (tag : Nat) (inHand : Bool) :
    ((b.grant x tag inHand).port i).reads = (b.port i).reads := by
  cases x with
  | write j w =>
    have after := congrArg Prod.fst (((b.forwardWrite j w tag).afterWrite_settings j w inHand).traffic i)
    exact after.trans (congrArg Prod.fst (b.forwardWrite_traffic j w tag i))
  | read j r =>
    have other : i ≠ j := fun same => by
      subst same
      cases held.symm.trans free
    rw [Block.grant, Block.forwardRead, Block.port_withMemory, b.setPort_other other]
  | internal q =>
    show ((b.forwardInternal q tag).port i).reads = _
    cases i <;> simp [Block.forwardInternal]

end

/-- Settles O22: the port's turn gives its head read, and a read that is held back may not go. -/
theorem grantForwardsTheHeadRead : Obligations.GrantForwardsTheHeadRead := by
  unfold Obligations.GrantForwardsTheHeadRead
  refine ⟨fun s pick inHand i r rest tag turn hl buffered queued write room apart picked => ?_,
    fun s pick inHand i r rest hl older => ?_⟩
  · have mayGo : s.block.freeRead i = some r := by
      refine Block.freeRead_iff.2 ⟨rest, hl, fun ⟨v, hv, first, overlap⟩ => ?_,
        fun ⟨hi, q, hq, first, dir, overlap⟩ => ?_, room, apart⟩
      · simp [buffered v hv first] at overlap
      · simp [queued hi q hq first dir] at overlap
    have first : ∀ w, s.block.freeWrite i = some w → r.stamp ≤ w.stamp := fun w hw => by
      obtain ⟨more, hb, ready, places, free⟩ := Block.freeWrite_iff.1 hw
      rcases write w more hb with h | h | h | h
      · exact absurd ready h
      · exact h
      · exact absurd places h.not_gt
      · simp [free] at h
    have presented : s.block.presents (portSource i) = some (.read i r) := by
      rw [Block.presents_portSource, Block.portPresents_read mayGo first]
    show Host.Outcome.next (s.withBlock (s.block.arbiterGrant pick inHand)) = _
    rw [Block.arbiterGrant_of_granted (Block.granted_of_inTurn turn presented) picked, Block.grant,
      Block.forwardRead_eq hl, MemoryPort.send, portSource_upstream]
    rfl
  · have held : s.block.freeRead i = none := by
      refine Option.eq_none_iff_forall_ne_some.2 fun x hx => ?_
      obtain ⟨more, hreads, noOlder, noInternal, -⟩ := Block.freeRead_iff.1 hx
      obtain ⟨rfl, -⟩ := List.cons.inj (hl.symm.trans hreads)
      exact older.elim noOlder noInternal
    refine ⟨_, rfl, ?_⟩
    show ((s.block.arbiterGrant pick inHand).port i).reads = _
    rcases s.block.arbiterGrant_cases pick inHand with same | ⟨x, tag, free, -, granted⟩
    · rw [same, hl]
    · rw [granted, Block.grant_reads free held, hl]

/-! ### Who presents a request, and whose turn it is (R161) -/

/-- A port presents a request when its head write or its head read may go. -/
theorem Block.presents_portSource_iff {b : Block} {i : PortId} : b.presents (portSource i) ≠ none ↔
    (∃ w, b.freeWrite i = some w) ∨ ∃ r, b.freeRead i = some r := by
  rw [Block.presents_portSource, Block.portPresents]
  cases hw : b.freeWrite i with
  | none => cases hr : b.freeRead i <;> simp
  | some w =>
    cases hr : b.freeRead i with
    | none => simp
    | some r =>
      simp only
      split_ifs <;> simp

/-- In its turn a source that presents a request is granted, and becomes the last grantee. -/
theorem Block.arbiterGrant_inTurn {b : Block} {src : Source} {pick tag : Nat} (inHand : Bool)
    (presents : b.presents src ≠ none) (picked : b.memory.pickTag pick = some tag) (turn : b.inTurn src) :
    ∃ q, (b.arbiterGrant pick inHand).memory.lastGrantee = src
      ∧ (b.arbiterGrant pick inHand).memory.sent = b.memory.sent ++ [q] ∧ q.tag = tag := by
  obtain ⟨x, hx⟩ := Option.ne_none_iff_exists'.1 presents
  obtain ⟨limit, memory⟩ := b.grant_memory x tag inHand
  refine ⟨b.sentFor x tag, ?_, ?_, Block.sentFor_tag x tag⟩
  · rw [Block.arbiterGrant_of_granted (Block.granted_of_inTurn turn hx) picked, memory]
    exact (Block.presents_free hx).2
  · rw [Block.arbiterGrant_of_granted (Block.granted_of_inTurn turn hx) picked, memory]
    rfl

theorem Block.arbiterGrant_idle {b : Block} {pick : Nat} (inHand : Bool)
    (h : (∀ src, b.presents src = none) ∨ b.memory.pickTag pick = none) : b.arbiterGrant pick inHand = b := by
  unfold Block.arbiterGrant
  rcases h with none | none
  · rw [Block.granted_of_none none]
  · rw [none]
    split
    · next h => cases h
    · rfl

/-- Settles O24: the first source that presents a request has its turn, and what a source presents is what may go. -/
theorem firstPresentingSourceIsGranted : Obligations.FirstPresentingSourceIsGranted := by
  unfold Obligations.FirstPresentingSourceIsGranted
  refine ⟨fun s pick inHand => ⟨fun src tag presents picked turn => ?_, fun idle => ?_⟩,
    fun m pick => ⟨fun tag => MemoryPort.pickTag_free, MemoryPort.pickTag_none⟩, fun b => ?_, fun addr beats => rfl,
    fun b work => by cases work <;> rfl⟩
  · obtain ⟨q, grantee, sent, hq⟩ := Block.arbiterGrant_inTurn inHand presents picked turn
    exact ⟨_, q, rfl, grantee, sent, hq⟩
  · show Host.Outcome.next (s.withBlock (s.block.arbiterGrant pick inHand)) = _
    rw [Block.arbiterGrant_idle inHand idle]
    rfl
  · intro meets clear held
    have shares : ∀ src dir, held src dir = b.memory.outstanding src dir := fun src dir => by
      rw [MemoryPort.outstanding, ← List.countP_eq_length_filter]
      refine List.countP_congr fun e _ => ?_
      rcases e.owner with (_ | _) | _ | _ | _ | _ <;> cases src <;> simp [EntryOwner.source]
    have clears : ∀ range dir, clear range dir ↔ b.memory.conflicts range dir = false := fun range dir =>
      MemoryPort.conflicts_iff.symm
    have overlap : ∀ x y : Range, x.overlaps y = true ↔ meets x y := Range.overlaps_iff
    refine ⟨fun i => ?_, ?_⟩
    · rw [Block.presents_portSource_iff]
      simp only [Block.freeWrite_iff, Block.freeRead_iff, shares, clears, overlap]
      refine or_congr Iff.rfl (exists_congr fun r => exists_congr fun rest => and_congr_right fun _ => ⟨?_, ?_⟩)
      · rintro ⟨buffered, queued, room, apart⟩
        exact ⟨room, apart, fun w hw first meet => buffered ⟨w, hw, first, meet⟩,
          fun hi q hq first dir meet => queued ⟨hi, q, hq, first, dir, meet⟩⟩
      · rintro ⟨room, apart, buffered, queued⟩
        exact ⟨fun ⟨w, hw, first, meet⟩ => buffered w hw first meet,
          fun ⟨hi, q, hq, first, dir, meet⟩ => queued hi q hq first dir meet, room, apart⟩
    · show b.masterPresents ≠ none ↔ _
      simp only [Option.ne_none_iff_exists', Block.masterPresents_iff, shares, clears]
      constructor
      · rintro ⟨_, q, rest, -, meets⟩
        exact ⟨q, rest, meets⟩
      · rintro ⟨q, rest, meets⟩
        exact ⟨_, q, rest, rfl, meets⟩

end Sys2Proof.Machine
end

section
/-! SUPPORT. SET_PORT_POLICY (R164; O38). -/

namespace Sys2Proof.Machine

theorem policyOfCode_none {code : Byte} (h0 : code ≠ 0) (h1 : code ≠ 1) : policyOfCode code.toNat = none := by
  unfold policyOfCode
  split
  · next h => exact absurd (BitVec.eq_of_toNat_eq h) h0
  · next h => exact absurd (BitVec.eq_of_toNat_eq h) h1
  · rfl

theorem failResponseOfCode_none {code : Byte} (h0 : code ≠ 0) (h1 : code ≠ 1) :
    failResponseOfCode code.toNat = none := by
  unfold failResponseOfCode
  split
  · next h => exact absurd (BitVec.eq_of_toNat_eq h) h0
  · next h => exact absurd (BitVec.eq_of_toNat_eq h) h1
  · rfl

/-- The slot fields of SET_PORT_POLICY (R202). -/
def policyFields (port policy fail : Byte) (limit : BitVec 16) : List SlotField :=
  [⟨4, 1, port.toNat⟩, ⟨5, 1, policy.toNat⟩, ⟨6, 1, fail.toNat⟩, ⟨8, 2, limit.toNat⟩]

theorem Block.copied_policyFields (b : Block) (port policy fail : Byte) (limit : BitVec 16) :
    let d := (b.copied 5 (policyFields port policy fail limit)).decoder
    d.argument 4 1 = port.toNat ∧ d.argument 5 1 = policy.toNat ∧ d.argument 6 1 = fail.toNat
      ∧ d.argument 8 2 = limit.toNat := by
  have arguments := b.copied_arguments (kind := 5) (fields := policyFields port policy fail limit)
    (by simp [policyFields, SlotField.apart])
    (by simpa [policyFields] using ⟨port.isLt, policy.isLt, fail.isLt, limit.isLt⟩)
  simpa [policyFields] using arguments

section

variable (b : Block) (port policy fail : Byte) (limit : BitVec 16)

/-- Without a port, a policy and a fail response that the arguments name, nothing changes (R164, R186). -/
theorem Block.decide_setPortPolicy_bad (bad : portOfCode port.toNat = none ∨ policyOfCode policy.toNat = none
      ∨ failResponseOfCode fail.toNat = none) :
    (b.copied 5 (policyFields port policy fail limit)).decideCommand 5 false =
      (b.copied 5 (policyFields port policy fail limit), .badArgument) := by
  obtain ⟨hport, hpolicy, hfail, -⟩ := b.copied_policyFields port policy fail limit
  simp only [Block.decideCommand, Block.setPortPolicy, hport, hpolicy, hfail]
  split
  · next hp hf hi => simp [hi, hp, hf] at bad
  · rfl

variable {b} in
/-- What SET_PORT_POLICY does with arguments that name a port and two policies (R164). -/
theorem Block.setPortPolicy_named {i : PortId} {p : Policy} {f : FailResponse}
    (hi : portOfCode (b.decoder.argument 4 1) = some i) (hp : policyOfCode (b.decoder.argument 5 1) = some p)
    (hf : failResponseOfCode (b.decoder.argument 6 1) = some f) : b.setPortPolicy =
      ({ b.setPort i { b.port i with policy := p, failResponse := f } with
        memory := { b.memory with
          responseLimit := if b.decoder.argument 8 2 = 0 then b.memory.responseLimit
            else b.decoder.argument 8 2 } }, .done) := by
  simp only [Block.setPortPolicy, hi, hp, hf]
  split_ifs
  · cases i <;> rfl
  · cases i <;> rfl

/-- The port takes the policies, and the memory port the limit unless it is 0 (R164). -/
theorem Block.decide_setPortPolicy {i : PortId} {p : Policy} {f : FailResponse} (hi : portOfCode port.toNat = some i)
    (hp : policyOfCode policy.toNat = some p) (hf : failResponseOfCode fail.toNat = some f) :
    (b.copied 5 (policyFields port policy fail limit)).decideCommand 5 false =
      ({ (b.copied 5 (policyFields port policy fail limit)).setPort i
          { b.port i with policy := p, failResponse := f } with
        memory := { b.memory with
          responseLimit := if limit = 0 then b.memory.responseLimit else limit.toNat } }, .done) := by
  obtain ⟨hport, hpolicy, hfail, hlimit⟩ := b.copied_policyFields port policy fail limit
  have zero : limit.toNat = 0 ↔ limit = 0 := by simp [← BitVec.toNat_inj]
  rw [Block.decideCommand, Block.setPortPolicy_named (hport ▸ hi) (hpolicy ▸ hp) (hfail ▸ hf)]
  simp only [hlimit, zero, Block.copied_frame]

end

theorem policyOfCode_of_mem {code : Byte} {p : Policy} (h : (code, p) ∈ [((0 : Byte), Policy.mark), (1, .contain)]) :
    policyOfCode code.toNat = some p := by
  simp only [List.mem_cons, Prod.mk.injEq, List.not_mem_nil, or_false] at h
  rcases h with ⟨rfl, rfl⟩ | ⟨rfl, rfl⟩ <;> rfl

theorem failResponseOfCode_of_mem {code : Byte} {f : FailResponse}
    (h : (code, f) ∈ [((0 : Byte), FailResponse.allOnes), (1, .error)]) :
    failResponseOfCode code.toNat = some f := by
  simp only [List.mem_cons, Prod.mk.injEq, List.not_mem_nil, or_false] at h
  rcases h with ⟨rfl, rfl⟩ | ⟨rfl, rfl⟩ <;> rfl

/-- Settles O38, by what the three codes name. -/
theorem setPortPolicySetsThePort : Obligations.SetPortPolicySetsThePort := by
  unfold Obligations.SetPortPolicySetsThePort
  have row : ∀ (s : State) port policy fail limit, exec (.setPortPolicy port policy fail limit) s =
      .next (s.withBlock (s.block.commandWrite 5 (policyFields port policy fail limit) false)) := fun _ _ _ _ _ => rfl
  refine ⟨fun s port policy fail limit bad => ?_, fun s port policy fail limit i p f hi hp hf => ?_⟩
  · have unnamed : portOfCode port.toNat = none ∨ policyOfCode policy.toNat = none
        ∨ failResponseOfCode fail.toNat = none := by
      rw [not_and_or, not_and_or, not_or, not_or, not_or] at bad
      exact bad.imp (fun h => portOfCode_none h.1 h.2)
        (.imp (fun h => policyOfCode_none h.1 h.2) fun h => failResponseOfCode_none h.1 h.2)
    rw [row, s.block.commandWrite_same 5 _ false (by decide) (by decide) _
      (s.block.decide_setPortPolicy_bad port policy fail limit unnamed)]
    rfl
  · rw [row, s.block.commandWrite_decided 5 _ false (by decide) (by decide) _ _
      (s.block.decide_setPortPolicy port policy fail limit (portOfCode_of_mem hi) (policyOfCode_of_mem hp)
        (failResponseOfCode_of_mem hf)) (.inl (by simp))]
    congr 2
    cases i <;> apply Block.eq_of_parts <;> simp [Block.copied, Decoder.took, policyFields, Block.setPort]

end Sys2Proof.Machine
end

section
/-! SUPPORT. Requests and answers of each master ID and direction, over the operations of a port and over every command
(R149, R155, R165; O48). -/

namespace Sys2Proof.Machine

/-! ### One port -/

/-- Every decided answer is of its request's master ID and direction (R149). -/
def Port.OwnAnswers (p : Port) : Prop :=
  ∀ q ∈ p.unanswered, ∀ a, q.decided = some a → a.master = q.master ∧ a.direction = q.direction

/-- Requests move to answers at most: what has been given stays given, and of every kind the open requests and the
answers given are as many as they were. -/
structure Port.Conserves (p t : Port) : Prop where
  own : p.OwnAnswers → t.OwnAnswers
  given : p.given <+: t.given
  total : p.OwnAnswers → ∀ master dir, t.kindTotal master dir = p.kindTotal master dir

namespace Port.Conserves

theorem of_same {p t : Port} (unanswered : t.unanswered = p.unanswered) (given : t.given = p.given) : p.Conserves t :=
  ⟨fun h q hq => h q (unanswered ▸ hq), given ▸ List.prefix_rfl, fun _ _ _ => by simp only [Port.kindTotal, unanswered, given]⟩

theorem trans {p q t : Port} (h : p.Conserves q) (h' : q.Conserves t) : p.Conserves t :=
  ⟨h'.own ∘ h.own, h.given.trans h'.given, fun own master dir =>
    (h'.total (h.own own) master dir).trans (h.total own master dir)⟩

theorem of_traffic {p t : Port} (h : t.traffic = p.traffic) : p.Conserves t := by
  simp only [Port.traffic, Prod.mk.injEq] at h
  exact of_same h.2.1 h.2.2

/-- Deciding an answer moves requests from open to answered (R149). -/
theorem answer (p : Port) (stamp : Nat) (resp : Response) (data : List Beat) :
    p.Conserves (p.answer stamp resp data) where
  own h := by
    unfold Port.answer
    split
    · exact h
    · intro q hq a ha
      obtain ⟨x, hx, rfl⟩ := List.mem_map.1 ((releaseAnswers_sublist _ _ _).subset hq)
      split at ha
      · next hs =>
        rw [if_pos hs]
        cases ha
        exact ⟨rfl, rfl⟩
      · next hs =>
        rw [if_neg hs]
        exact h x hx a ha
  given := by
    obtain ⟨more, given⟩ := (p.answer_conserves stamp resp data).1
    exact given ▸ List.prefix_append _ _
  total h master dir := p.answer_kindTotal stamp resp data master dir h

/-- A write is discarded with its answer (R131, R134, R135). -/
theorem discardWrite (i : PortId) (p : Port) (stamp : Nat) : p.Conserves (p.discardWrite i stamp) := by
  have left : p.Conserves { p with buffer := p.buffer.filter fun v => v.stamp != stamp } := of_same rfl rfl
  have settled : ∀ q : Port, q.Conserves (q.settleHead i) := fun q => of_same (by simp) (by simp)
  exact (left.trans (answer _ stamp .okay [])).trans (settled _)

/-- Containment decides answers only (R134). -/
theorem contain (p : Port) : p.Conserves p.contain := by
  unfold Port.contain
  simp only
  refine List.foldlRecOn (motive := p.Conserves) _ Port.failRead ?_ fun _ h r _ => h.trans (answer _ _ _ _)
  have discarded := List.foldlRecOn (motive := p.Conserves)
    (p.buffer.filter fun w => !w.staysOnContainment) (fun p w => p.answer w.stamp .okay [])
    (b := { p with
      buffer := (p.buffer.filter BufferedWrite.staysOnContainment).map fun w =>
        if w.state = .taking then { w with doomed := true } else w
      containment := .contained }) (of_same rfl rfl) fun _ h w _ => h.trans (answer _ _ _ _)
  exact discarded.trans (of_same rfl rfl)

/-- A beat of a write whose request parity failed (R129). -/
theorem failedBeat (p : Port) (w : FailedWrite) : p.Conserves (p.failedBeat w) := by
  have counted : ∀ failing, p.Conserves { p with failing := failing } := fun _ => of_same rfl rfl
  unfold Port.failedBeat
  split
  · exact (counted _).trans (answer _ _ _ _)
  · exact counted _

end Port.Conserves

/-- A request that the port takes is one more of its kind (R149). -/
theorem Port.openRequest_kindTotal (p : Port) (stamp : Nat) (r : Request) (dir : Direction) (place : Bool)
    (m : MasterId) (d : Direction) : (p.openRequest stamp r dir place).kindTotal m d =
      p.kindTotal m d + if r.master = m ∧ dir = d then 1 else 0 := by
  simp only [Port.kindTotal, Port.openRequest, List.countP_append, List.countP_singleton, OpenRequest.sameKind_iff]
  omega

theorem Port.OwnAnswers.openRequest {p : Port} (h : p.OwnAnswers) (stamp : Nat) (r : Request) (dir : Direction)
    (place : Bool) : (p.openRequest stamp r dir place).OwnAnswers := by
  intro q hq a ha
  rcases List.mem_append.1 hq with hq | hq
  · exact h q hq a ha
  · rw [List.mem_singleton.1 hq] at ha
    cases ha

/-! ### The block -/

/-- Both ports conserve their requests and answers. -/
def Block.Conserves (b t : Block) : Prop := ∀ i, (b.port i).Conserves (t.port i)

/-- A port has taken a request, which is then answered at most; the other port conserves its own. -/
structure Block.Takes (b : Block) (i : PortId) (r : Request) (dir : Direction) (t : Block) : Prop where
  other : ∀ j, j ≠ i → (b.port j).Conserves (t.port j)
  taken : ∃ stamp place, ((b.port i).openRequest stamp r dir place).Conserves (t.port i)

section

variable {b c t : Block}

theorem Block.Conserves.trans (h : b.Conserves c) (h' : c.Conserves t) : b.Conserves t := fun i => (h i).trans (h' i)

theorem Block.Conserves.of_ports (h : ∀ i, t.port i = b.port i) : b.Conserves t :=
  fun i => .of_same (by rw [h i]) (by rw [h i])

theorem Block.Conserves.refl (b : Block) : b.Conserves b := .of_ports fun _ => rfl

/-- A change that is made on a condition alone. -/
theorem Block.Conserves.when (h : b.Conserves t) {p : Prop} [Decidable p] : b.Conserves (if p then t else b) := by
  split
  · exact h
  · exact .refl b

theorem Block.PathSame.conserves (h : b.PathSame t) : b.Conserves t := .of_ports h.port

theorem Block.PathSettings.conserves (h : b.PathSettings t) : b.Conserves t := fun i => .of_traffic (h.traffic i)

theorem Block.Takes.trans {i : PortId} {r : Request} {dir : Direction} (h : b.Takes i r dir c) (h' : c.Conserves t) :
    b.Takes i r dir t := by
  obtain ⟨stamp, place, taken⟩ := h.taken
  exact ⟨fun j hj => (h.other j hj).trans (h' j), stamp, place, taken.trans (h' i)⟩

end

variable (b : Block)

theorem Block.conserves_setPort (i : PortId) {p : Port} (h : (b.port i).Conserves p) : b.Conserves (b.setPort i p) := by
  intro j
  by_cases hj : j = i
  · subst hj
    rwa [Block.port_setPort]
  · rw [b.setPort_other hj]
    exact .of_same rfl rfl

/-- A port replaced by one that has taken the request. -/
theorem Block.takes_setPort (i : PortId) {r : Request} {dir : Direction} {p : Port} (stamp : Nat) (place : Bool)
    (h : ((b.port i).openRequest stamp r dir place).Conserves p) : b.Takes i r dir (b.setPort i p).nextStamp := by
  have port : ∀ j, (b.setPort i p).nextStamp.port j = (b.setPort i p).port j := fun j => by cases j <;> rfl
  refine ⟨fun j hj => ?_, stamp, place, ?_⟩
  · rw [port, b.setPort_other hj]
    exact .of_same rfl rfl
  · rwa [port, Block.port_setPort]

theorem Block.conserves_containPort (i : PortId) : b.Conserves (b.containPort i) := by
  have contained : b.Conserves (b.setPort i (b.port i).contain) := b.conserves_setPort i (.contain _)
  unfold Block.containPort
  split
  · exact .refl b
  · refine contained.trans (.of_ports fun j => ?_)
    cases i
    · simp only
      split_ifs <;> cases j <;> simp
    · cases j <;> simp

theorem Block.conserves_report (e : LoggedError) : b.Conserves (b.report e) := by
  have hold : (b.logError e).Conserves (b.logError e).triggerHold := .of_ports fun i => by cases i <;> simp
  refine Block.Conserves.trans (.of_ports (b.logError_port e)) ?_
  show (b.logError e).Conserves ((b.logError e).followReport e)
  unfold Block.followReport
  split
  · exact Block.conserves_containPort _ .capture
  · exact Block.conserves_containPort _ .system
  · exact (Block.conserves_containPort _ .capture).when
  · exact (Block.conserves_containPort _ .system).when
  · exact hold
  · exact hold.when
  · exact hold.when
  · exact .refl _

theorem Block.conserves_reportAddrParity (i : PortId) (r : Request) : b.Conserves (b.reportAddrParity i r) :=
  b.conserves_report _

/-! ### The commands of the path -/

/-- A write request is taken, or stays with the partner (R148). -/
theorem Block.writeRequest_takes (i : PortId) (r : Request) :
    b.writeRequest i r = b ∨ b.Takes i r .write (b.writeRequest i r) := by
  unfold Block.writeRequest
  split_ifs
  · exact .inr (b.takes_setPort i b.stamp false (.of_same rfl rfl))
  · refine .inr (.trans ?_ (Block.conserves_reportAddrParity _ i r))
    exact b.takes_setPort i b.stamp false (.of_same rfl rfl)
  · exact .inl rfl

/-- A read request is taken, or stays with the partner (R148). -/
theorem Block.readRequest_takes (i : PortId) (r : Request) :
    b.readRequest i r = b ∨ b.Takes i r .read (b.readRequest i r) := by
  unfold Block.readRequest
  split_ifs
  · right
    simp only [Block.takeRead]
    split
    · exact b.takes_setPort i b.stamp true (.of_same rfl rfl)
    · exact b.takes_setPort i b.stamp true (.answer _ _ _ _)
  · exact .inr ((b.takes_setPort i b.stamp false (.answer _ _ _ _)).trans (Block.conserves_reportAddrParity _ i r))
  · exact .inl rfl

theorem Block.conserves_lastBeat (i : PortId) (w : BufferedWrite) : b.Conserves (b.lastBeat i w) := by
  have put : b.Conserves (b.setPort i (if w.doomed || (w.taken.any (·.bad) && w.policy == .contain)
      then (b.port i).discardWrite i w.stamp else (b.port i).writeWaits i w)) := by
    refine b.conserves_setPort i ?_
    split_ifs
    · exact .discardWrite i _ _
    · exact .of_same (by simp [Port.writeWaits, Port.setWrite]) (by simp [Port.writeWaits, Port.setWrite])
  exact put.trans (Block.conserves_report _ _).when

theorem Block.conserves_writeBeat (i : PortId) (x : WriteBeat) : b.Conserves (b.writeBeat i x) := by
  unfold Block.writeBeat
  split
  · exact .refl b
  · split
    · exact .refl b
    · exact b.conserves_setPort i (.failedBeat _ _)
    · simp only [Block.bufferedBeat]
      split_ifs
      · exact b.conserves_setPort i (.of_same rfl rfl)
      · exact b.conserves_lastBeat i _

theorem Block.conserves_burstOffer : b.Conserves b.burstOffer := by
  have capture : ∀ t : Block, t.capture.unanswered = b.capture.unanswered → t.capture.given = b.capture.given →
      t.system = b.system → b.Conserves t := fun t unanswered given system i => by
    cases i with
    | capture => exact .of_same unanswered given
    | system => exact .of_same (congrArg Port.unanswered system) (congrArg Port.given system)
  unfold Block.burstOffer
  split
  · split_ifs
    · split <;> exact capture _ (by simp [Block.setCaptureHead]) (by simp [Block.setCaptureHead]) (by simp)
    · exact .refl b
  · exact .refl b

theorem Block.conserves_grant (x : Presented) (tag : Nat) (inHand : Bool) : b.Conserves (b.grant x tag inHand) := by
  cases x with
  | write i w =>
    have sent : b.Conserves (b.forwardWrite i w tag) := fun j => .of_traffic (b.forwardWrite_traffic i w tag j)
    exact sent.trans (Block.afterWrite_settings _ i w inHand).conserves
  | read i r =>
    have left : b.Conserves (b.setPort i { b.port i with reads := (b.port i).reads.tail }) :=
      b.conserves_setPort i (.of_same rfl rfl)
    exact left.trans (.of_ports (Block.port_withMemory _ _))
  | internal q => exact .of_ports fun i => by cases i <;> simp [Block.grant, Block.forwardInternal]

theorem Block.conserves_answerPort (i : PortId) (n : Nat) (r : Response) (data : List Beat) :
    b.Conserves (b.answerPort i n r data) := b.conserves_setPort i (.answer _ _ _ _)

theorem Block.conserves_ownerDone (o : EntryOwner) (data : List Beat) : b.Conserves (b.ownerDone o data) := by
  refine .of_ports fun i => ?_
  unfold Block.ownerDone
  split <;> cases i <;> simp

theorem Block.conserves_ownerFails (o : EntryOwner) : b.Conserves (b.ownerFails o) := by
  refine .of_ports fun i => ?_
  unfold Block.ownerFails
  split <;> cases i <;> simp

theorem Block.conserves_retire (tag : Nat) : b.Conserves (b.retire tag) := .of_ports (b.port_withMemory _)

theorem Block.conserves_elapse (n : Nat) : b.Conserves (b.elapse n) := .of_ports fun i => by cases i <;> rfl

theorem Block.conserves_memoryResponse (tag : Nat) (r : Response) (data : List Beat) :
    b.Conserves (b.memoryResponse tag r data) := by
  unfold Block.memoryResponse
  split
  · exact .refl b
  · refine (b.conserves_retire tag).trans ?_
    unfold Block.route
    split
    · exact Block.conserves_answerPort _ _ _ _ _
    · exact (Block.conserves_answerPort _ _ _ _ _).trans (Block.conserves_report _ _)
    · exact Block.conserves_ownerDone _ _ _
    · exact (Block.conserves_report _ _).trans (Block.conserves_ownerFails _ _)

theorem Block.conserves_responseTimerExpiry (tag : Nat) : b.Conserves (b.responseTimerExpiry tag) := by
  unfold Block.responseTimerExpiry
  split
  · exact .refl b
  · next e _ =>
    refine ((b.conserves_elapse e.timer).trans (Block.conserves_retire _ tag)).trans ?_
    unfold Block.timeOut
    simp only
    split
    · exact (Block.conserves_report _ _).trans (Block.conserves_answerPort _ _ _ _ _)
    · exact (Block.conserves_report _ _).trans (Block.conserves_ownerFails _ _)

/-! ### Every command (O48) -/

variable {b}

/-- Only a request that a port takes adds to its requests and answers. -/
theorem Block.PathChange.conserves {c : Instr} {t : Block} (h : b.PathChange c t)
    (reset : ∀ kind straps contain, c ≠ .fullReset kind straps contain) :
    b.Conserves t ∨ ∃ i r dir, b.Takes i r dir t
      ∧ ((dir = .write ∧ c = .writeRequest i r) ∨ (dir = .read ∧ c = .readRequest i r)) := by
  have unchanged : ∀ {d : Block}, d = b → b.Conserves d := fun same => same ▸ .refl b
  cases h with
  | same h => exact .inl h.conserves
  | elapses n h => exact .inl ((b.conserves_elapse n).trans h.conserves)
  | copied copy inHand => exact .inl (b.decodeCopy_settings copy inHand).conserves
  | fullReset kind straps contain => exact absurd rfl (reset kind straps contain)
  | writeRequest i r =>
    exact (b.writeRequest_takes i r).imp unchanged fun takes => ⟨i, r, .write, takes, .inl ⟨rfl, rfl⟩⟩
  | readRequest i r =>
    exact (b.readRequest_takes i r).imp unchanged fun takes => ⟨i, r, .read, takes, .inr ⟨rfl, rfl⟩⟩
  | writeBeat i x => exact .inl (b.conserves_writeBeat i x)
  | burstOffer => exact .inl b.conserves_burstOffer
  | arbiterGrant pick inHand =>
    rcases b.arbiterGrant_cases pick inHand with same | ⟨x, tag, -, -, granted⟩
    · exact .inl (unchanged same)
    · exact .inl (granted ▸ b.conserves_grant x tag inHand)
  | memoryResponse tag r data => exact .inl (b.conserves_memoryResponse tag r data)
  | responseTimerExpiry tag => exact .inl (b.conserves_responseTimerExpiry tag)

/-- Settles O48: a port conserves its requests and answers, or takes one request and conserves the rest. -/
theorem requestsAndAnswersAreConserved : Obligations.RequestsAndAnswersAreConserved := by
  unfold Obligations.RequestsAndAnswersAreConserved
  intro c s t i sound h reset
  have own : (s.block.port i).OwnAnswers := sound.own i
  have conserved : (s.block.port i).Conserves (t.block.port i) →
      (∃ more, (t.block.port i).given = (s.block.port i).given ++ more)
      ∧ ∀ m d, (t.block.port i).kindTotal m d = (s.block.port i).kindTotal m d := fun hc => by
    obtain ⟨more, given⟩ := hc.given
    exact ⟨⟨more, given.symm⟩, hc.total own⟩
  rcases (exec_path h).conserves reset with all | ⟨j, r, dir, takes, command⟩
  · obtain ⟨given, total⟩ := conserved (all i)
    exact ⟨given, fun m d => .inl (total m d)⟩
  · by_cases hj : i = j
    · subst hj
      obtain ⟨stamp, place, taken⟩ := takes.taken
      obtain ⟨more, given⟩ := taken.given
      refine ⟨⟨more, given.symm⟩, fun m d => ?_⟩
      have total := taken.total (own.openRequest stamp r dir place) m d
      rw [Port.openRequest_kindTotal] at total
      split_ifs at total with kind
      · obtain ⟨rfl, rfl⟩ := kind
        exact .inr ⟨total, r, rfl, command⟩
      · exact .inl total
    · obtain ⟨given, total⟩ := conserved (takes.other i hj)
      exact ⟨given, fun m d => .inl (total m d)⟩

end Sys2Proof.Machine
end

section
/-! SUPPORT. The record writer at its ring: what a record offered, a report, and a command that concerns no ring leave
of it (R167 to R170, R179). -/

namespace Sys2Proof.Machine

/-- The record writer but for its output queue, its drop counter and a held consumer update: the ring, the indices, the
slot write in progress and RING_IRQ. -/
def RecordWriter.atRing (w : RecordWriter) : RecordWriter := { w with queue := [], heldUpdate := none, drops := 0 }

/-- Whether a ring is sound is a matter of this part alone. -/
theorem RecordWriter.RingSound.of_same {w v : RecordWriter} (h : w.RingSound) (hv : v.atRing = w.atRing) :
    v.RingSound := by
  obtain ⟨ring, producer, consumer, slotWrite, ringIrq⟩ : v.ring = w.ring ∧ v.producer = w.producer
      ∧ v.consumer = w.consumer ∧ v.slotWrite = w.slotWrite ∧ v.ringIrq = w.ringIrq := by
    simpa [RecordWriter.atRing] using hv
  obtain ⟨unset, size, occupancy, room, irq⟩ := h
  constructor <;> simpa only [RecordWriter.occupancy, ring, producer, consumer, slotWrite, ringIrq]

variable (b : Block)

/-! ### Records offered and reports (R126, R127, R169, R170) -/

@[simp] theorem RecordWriter.offer_atRing (w : RecordWriter) (r : RingRecord) : (w.offer r).atRing = w.atRing := by
  unfold RecordWriter.offer
  split <;> rfl

@[simp] theorem Block.offerBoard_atRing (r : BoardResult) : (b.offerBoard r).writer.atRing = b.writer.atRing :=
  b.writer.offer_atRing _

@[simp] theorem Block.logError_atRing (e : LoggedError) : (b.logError e).writer.atRing = b.writer.atRing := by
  obtain ⟨queue, drops, offered⟩ := b.logError_writer e
  rw [offered]
  rfl

@[simp] theorem Block.report_atRing (e : LoggedError) : (b.report e).writer.atRing = b.writer.atRing := by
  simp [Block.report]

/-! ### Ports (R129, R130, R146, R148) -/

theorem Block.writeRequest_atRing (i : PortId) (r : Request) :
    (b.writeRequest i r).writer.atRing = b.writer.atRing := by
  unfold Block.writeRequest
  split_ifs
  · simp [Block.takeWrite]
  · simp [Block.refuseWrite, Block.reportAddrParity]
  · rfl

theorem Block.readRequest_atRing (i : PortId) (r : Request) : (b.readRequest i r).writer.atRing = b.writer.atRing := by
  unfold Block.readRequest
  split_ifs
  · simp only [Block.takeRead]
    split <;> simp
  · simp [Block.refuseRead, Block.reportAddrParity]
  · rfl

theorem Block.lastBeat_atRing (i : PortId) (w : BufferedWrite) : (b.lastBeat i w).writer.atRing = b.writer.atRing := by
  simp only [Block.lastBeat]
  split <;> simp

theorem Block.writeBeat_atRing (i : PortId) (x : WriteBeat) : (b.writeBeat i x).writer.atRing = b.writer.atRing := by
  unfold Block.writeBeat
  split
  · rfl
  · split
    · rfl
    · simp
    · simp only [Block.bufferedBeat]
      split
      · simp
      · exact b.lastBeat_atRing i _

theorem Block.burstOffer_writer : b.burstOffer.writer = b.writer := by
  unfold Block.burstOffer
  split
  · split
    · split <;> simp
    · rfl
  · rfl

/-! ### Joints and boards (R33, R41, R72, R77) -/

@[simp] theorem Block.giveResult_atRing (r : JointResult) : (b.giveResult r).writer.atRing = b.writer.atRing := by
  unfold Block.giveResult Block.offerJoint
  split_ifs <;> rfl

@[simp] theorem Block.judgeEach_atRing (p : Program) (k : Accumulator → HandOver) (l : List Accumulator) :
    (l.foldl (fun b a => Block.judgeRecord p (k a) b a.closeGapRow) b).writer.atRing = b.writer.atRing := by
  induction l generalizing b with
  | nil => rfl
  | cons a l ih => rw [List.foldl_cons, ih, Block.judgeRecord, Block.giveResult_atRing]

@[simp] theorem Block.judgeAbsents_atRing (p : Program) (c : Cause) (l : List Nat) :
    (l.foldl (Block.judgeAbsent p c) b).writer.atRing = b.writer.atRing := by
  induction l generalizing b with
  | nil => rfl
  | cons n l ih => rw [List.foldl_cons, ih, Block.judgeAbsent, Block.giveResult_atRing]

@[simp] theorem Block.admitRow_atRing (p : Program) (row : Nat) :
    (b.admitRow p row).writer.atRing = b.writer.atRing := by
  have one : ∀ (c : Block) j, (c.admitOne p j).writer.atRing = c.writer.atRing := fun c j => by
    simp only [Block.admitOne]
    split <;> simp [Block.judgeAbsent]
  unfold Block.admitRow
  induction p.joints.drop b.joints.pointer generalizing b with
  | nil => rfl
  | cons j l ih =>
    unfold Block.admitJoints
    split
    · rw [ih, one]
    · rfl

@[simp] theorem Block.notice_atRing (p : Program) (k : Nat) : (b.notice p k).writer.atRing = b.writer.atRing :=
  Block.judgeEach_atRing _ p (fun _ => .completed) _

@[simp] theorem Block.enterRow_atRing (p : Program) (k : Nat) (q : LaneProgress) (g : Segment) :
    (b.enterRow p k q g).writer.atRing = b.writer.atRing := by
  unfold Block.enterRow
  split <;> simp

@[simp] theorem Block.leaveSegment_atRing (p : Program) (k : Nat) (q : LaneProgress) (g : Segment) :
    (b.leaveSegment p k q g).writer.atRing = b.writer.atRing := by
  simp only [Block.leaveSegment]
  split <;> simp

@[simp] theorem Block.handleSegment_atRing (p : Program) (u : Burst) (g : Segment) :
    (b.handleSegment p u g).writer.atRing = b.writer.atRing := by
  unfold Block.handleSegment
  split
  · rfl
  · split
    · simp [Block.orderBreak]
    · simp

@[simp] theorem Block.reportLaneRange_atRing (u : Burst) : (b.reportLaneRange u).writer.atRing = b.writer.atRing := by
  unfold Block.reportLaneRange
  split <;> simp

theorem Block.segment_atRing : b.segment.writer.atRing = b.writer.atRing := by
  have reset : ∀ c : Block, c.resetAfterSegment.writer = c.writer := fun c => by
    unfold Block.resetAfterSegment
    split <;> simp
  unfold Block.segment
  split
  · simp only
    split <;> simp [reset]
  · rfl

@[simp] theorem Block.closeVerdicts_atRing : b.closeVerdicts.writer.atRing = b.writer.atRing := by
  unfold Block.closeVerdicts
  split
  · next p _ =>
    have each := fun c l => Block.judgeEach_atRing c p
      (fun a => if a.complete b.tracker.progress then .completed else .forced) l
    simp only [Block.handOverUnreached, Block.judgeAbsents_atRing, Block.handOverAll, each]
  · rfl

@[simp] theorem Block.finishBoard_atRing : b.finishBoard.writer.atRing = b.writer.atRing := by
  unfold Block.finishBoard
  split
  · simp
  · split <;> simp

theorem Block.closingWork_atRing : b.closingWork.writer.atRing = b.writer.atRing := by
  unfold Block.closingWork Block.resetAfterClosing
  split
  · split <;> simp
  · rfl

/-! ### The line (R99 to R103, R109, R116) -/

@[simp] theorem Block.dueAction_atRing (x : Board) : (b.dueAction x).writer.atRing = b.writer.atRing := by
  unfold Block.dueAction
  split <;> simp

@[simp] theorem Block.dueBoards_atRing (n : Nat) : (Block.dueBoards n b).writer.atRing = b.writer.atRing := by
  induction n generalizing b with
  | zero => rfl
  | succ n ih =>
    unfold Block.dueBoards
    split
    · rfl
    · split
      · simp [ih]
      · rfl

@[simp] theorem Block.positionChanged_atRing : b.positionChanged.writer.atRing = b.writer.atRing := by
  simp only [Block.positionChanged, Block.timeoutTest]
  split <;> simp

@[simp] theorem Block.illegalSample_atRing (x : Bool × Bool) :
    (b.illegalSample x).writer.atRing = b.writer.atRing := by
  simp [Block.illegalSample]

theorem Block.encoderSample_atRing (x : Bool × Bool) : (b.encoderSample x).writer.atRing = b.writer.atRing := by
  unfold Block.encoderSample
  split
  · rfl
  · split
    · rfl
    · split
      · simp [Block.legalStep]
      · simp

theorem Block.illegalStep_atRing : b.illegalStep.writer.atRing = b.writer.atRing := by
  unfold Block.illegalStep
  split
  · simp
  · rfl

@[simp] theorem Block.leadingEdge_atRing : b.leadingEdge.writer.atRing = b.writer.atRing := by
  simp only [Block.leadingEdge]
  split_ifs <;> simp

@[simp] theorem Block.edgeTo_atRing (high : Bool) : (b.edgeTo high).writer.atRing = b.writer.atRing := by
  unfold Block.edgeTo
  split <;> simp

theorem Block.edgeSample_atRing (high : Bool) : (b.edgeSample high).writer.atRing = b.writer.atRing := by
  unfold Block.edgeSample
  split_ifs <;> simp

theorem Block.boardEdgeLeading_atRing : b.boardEdgeLeading.writer.atRing = b.writer.atRing := by
  unfold Block.boardEdgeLeading
  split <;> simp

theorem Block.boardEdgeTrailing_atRing : b.boardEdgeTrailing.writer.atRing = b.writer.atRing := by
  unfold Block.boardEdgeTrailing
  split <;> simp

theorem Block.deadTimeEnd_writer : b.deadTimeEnd.writer = b.writer := by
  unfold Block.deadTimeEnd
  split <;> rfl

/-! ### Commands of other owners (R8, R9, R128, R137, R145, R164, R190, R192) -/

theorem Block.fetchReadIssue_writer : b.fetchReadIssue.writer = b.writer := by
  unfold Block.fetchReadIssue
  split
  · rfl
  · split_ifs <;> rfl

theorem Block.setLine_writer : b.setLine.1.writer = b.writer := by
  unfold Block.setLine
  split
  · rfl
  · split_ifs
    · rfl
    · rfl
    · unfold Block.setGateMode
      split <;> simp

theorem Block.setPortPolicy_writer : b.setPortPolicy.1.writer = b.writer := by
  simp only [Block.setPortPolicy]
  split
  · split <;> simp
  · rfl

theorem Block.resumePort_writer : b.resumePort.1.writer = b.writer := by
  unfold Block.resumePort
  split
  · rfl
  · split
    · rfl
    · split <;> simp

/-- Only SET_RING among the commands of the slot concerns the record writer (R172, R185). -/
theorem Block.decideCommand_writer {kind : Nat} (h : kind ≠ 3) (inHand : Bool) :
    (b.decideCommand kind inHand).1.writer = b.writer := by
  unfold Block.decideCommand
  split
  · simp only [Block.loadProgram]; split <;> (try split) <;> simp
  · simp only [Block.abortLoad]; split <;> simp
  · exact absurd rfl h
  · exact b.setLine_writer
  · exact b.setPortPolicy_writer
  · simp only [Block.clearLog]; split <;> simp
  · exact b.resumePort_writer
  · simp only [Block.releaseGate]; split <;> simp
  · simp only [Block.inspectionReset]; split_ifs <;> simp
  · rfl

end Sys2Proof.Machine
end

section
/-! SUPPORT. The ring over the commands that concern it and over every step (R167, R172 to R179; O52). -/

namespace Sys2Proof.Machine

/-! ### A ring without a slot write in progress (R167, R172, R179) -/

/-- The level that R179 gives RING_IRQ. -/
theorem RecordWriter.irqLevel_iff (w : RecordWriter) :
    w.irqLevel = true ↔ ∃ r, w.ring = some r ∧ r.irqOn = true ∧ w.producer ≠ w.consumer := by
  unfold RecordWriter.irqLevel
  split
  · next ring configured => simp [configured]
  · next unset => simp [unset]

/-- RING_IRQ re-evaluated on a ring without a slot write, of a legal size and within it: whatever moves an index or
configures the ring ends so. -/
theorem RecordWriter.ringSound_updateIrq {w : RecordWriter} {ring : Ring} (configured : w.ring = some ring)
    (idle : w.slotWrite = none) (legal : ∃ k ≤ 12, ring.size = 16 * 2 ^ k) (within : w.occupancy ≤ ring.size) :
    w.updateIrq.RingSound where
  unset none := by cases configured.symm.trans none
  size r hr := by cases configured.symm.trans hr; exact legal
  occupancy r hr := by cases configured.symm.trans hr; exact within
  room r _ busy := absurd idle busy
  irq := w.irqLevel_iff

theorem legalSize_le {n : Nat} (h : ∃ k ≤ 12, n = 16 * 2 ^ k) : n ≤ 65536 := by
  obtain ⟨k, hk, rfl⟩ := h
  calc 16 * 2 ^ k ≤ 16 * 2 ^ 12 := Nat.mul_le_mul_left 16 (Nat.pow_le_pow_right Nat.two_pos hk)
    _ = 65536 := by norm_num

/-- One record more in a ring with a free slot (R174, R175). -/
theorem occupancy_succ_le {p c : Counter} {n : Nat} (legal : ∃ k ≤ 12, n = 16 * 2 ^ k) (room : (p - c).toNat < n) :
    (p + 1 - c).toNat ≤ n := by
  have small := legalSize_le legal
  bv_omega

/-! ### The consumer index and the end of a slot write (R175 to R178) -/

variable {b : Block}

/-- A consumer update keeps the ring sound: taken it lies within the size, and clamped it leaves no record (R177). -/
theorem Block.applyConsumer_ringSound (h : b.writer.RingSound) (idle : b.writer.slotWrite = none) (u : ConsumerUpdate) :
    (b.applyConsumer u).writer.RingSound := by
  rcases configured : b.writer.ring with _ | ring
  · simpa only [Block.applyConsumer, configured] using h
  · have legal := h.size ring configured
    rw [Block.applyConsumer_of_ring configured]
    split
    · next within => exact RecordWriter.ringSound_updateIrq configured idle legal within
    · refine .of_same ?_ (Block.report_atRing _ _)
      exact RecordWriter.ringSound_updateIrq configured idle legal (by simp [RecordWriter.occupancy])

theorem Block.takeConsumer_ringSound (h : b.writer.RingSound) (u : ConsumerUpdate) :
    (b.takeConsumer u).writer.RingSound := by
  unfold Block.takeConsumer
  split
  · exact h
  · exact h.of_same rfl
  · next idle => exact Block.applyConsumer_ringSound h idle u

/-- A slot write that ends on a ring within its size leaves it within its size (R175 to R179). -/
theorem Block.slotWriteEnded_ringSound {ring : Ring} (configured : b.writer.ring = some ring)
    (legal : ∃ k ≤ 12, ring.size = 16 * 2 ^ k) (within : b.writer.occupancy ≤ ring.size) :
    (b.slotWriteEnded ring).writer.RingSound := by
  have ended : ∀ consumer, (b.writer.producer - consumer).toNat ≤ ring.size →
      (b.writer.slotEnded consumer).RingSound := fun consumer le =>
    RecordWriter.ringSound_updateIrq configured rfl legal le
  simp only [Block.slotWriteEnded, ← RecordWriter.slotEnded_eq configured]
  split
  · exact ended _ within
  · split
    · next le => exact ended _ le
    · exact .of_same (ended b.writer.producer (by simp)) (Block.report_atRing _ _)

/-- A slot write in progress is one to a configured ring with a free slot (R174). -/
theorem RecordWriter.RingSound.inProgress {w : RecordWriter} {n : Nat} (h : w.RingSound) (busy : w.slotWrite = some n) :
    ∃ ring, w.ring = some ring ∧ (∃ k ≤ 12, ring.size = 16 * 2 ^ k) ∧ w.occupancy < ring.size := by
  have busy' : w.slotWrite ≠ none := by simp [busy]
  rcases configured : w.ring with _ | ring
  · exact absurd (h.unset configured).2.2 busy'
  · exact ⟨ring, rfl, h.size ring configured, h.room ring configured busy'⟩

/-- The record written takes the free slot (R175). -/
theorem Block.slotDone_ringSound (h : b.writer.RingSound) (n : Nat) : (b.slotDone n).writer.RingSound := by
  by_cases busy : b.writer.slotWrite = some n
  · obtain ⟨ring, configured, legal, room⟩ := h.inProgress busy
    rw [Block.slotDone, if_pos busy, Block.endSlotWrite_eq (ring := ring) (by simpa using configured)]
    refine Block.slotWriteEnded_ringSound (by simpa using configured) legal ?_
    simpa [RecordWriter.occupancy] using occupancy_succ_le legal room
  · rwa [Block.slotDone, if_neg busy]

/-- A record dropped leaves the indices (R176). -/
theorem Block.slotFailed_ringSound (h : b.writer.RingSound) (n : Nat) : (b.slotFailed n).writer.RingSound := by
  by_cases busy : b.writer.slotWrite = some n
  · obtain ⟨ring, configured, legal, room⟩ := h.inProgress busy
    rw [Block.slotFailed_eq busy configured]
    exact Block.slotWriteEnded_ringSound configured legal room.le
  · rwa [Block.slotFailed, if_neg busy]

/-! ### The start of a slot write (R157, R174) -/

/-- A slot write that is due has its ring, no other in progress, and a free slot (R174). -/
theorem Block.dueSlot_room {ring : Ring} {r : RingRecord} (h : b.dueSlot = some (ring, r)) :
    b.writer.ring = some ring ∧ b.writer.occupancy < ring.size := by
  unfold Block.dueSlot at h
  split at h
  · next configured _ _ =>
    split at h
    · next due =>
      obtain ⟨rfl, -⟩ := Prod.mk.inj (Option.some.inj h)
      simp only [Bool.and_eq_true, decide_eq_true_eq] at due
      exact ⟨configured, due.2⟩
    · cases h
  · cases h

theorem Block.handSlot_ringSound (h : b.writer.RingSound) {ring : Ring} {r : RingRecord}
    (due : b.dueSlot = some (ring, r)) : (b.handSlot ring r).writer.RingSound := by
  obtain ⟨configured, free⟩ := Block.dueSlot_room due
  exact {
    unset := fun none => by cases configured.symm.trans none
    size := h.size
    occupancy := h.occupancy
    room := fun x hx _ => by cases configured.symm.trans hx; exact free
    irq := h.irq }

theorem Block.ringSlotWrite_ringSound (h : b.writer.RingSound) : b.ringSlotWrite.writer.RingSound := by
  unfold Block.ringSlotWrite
  split
  · exact h
  · next due =>
    split_ifs
    · exact h
    · exact Block.handSlot_ringSound h due
    · exact h

theorem Block.handWaiter_ringSound (h : b.writer.RingSound) (w : Waiter) : (b.handWaiter w).writer.RingSound := by
  unfold Block.handWaiter
  split
  · split <;> exact h
  · split
    · next due => exact Block.handSlot_ringSound h due
    · exact h
  · exact h
  · exact h

theorem Block.internalHandover_ringSound (h : b.writer.RingSound) : b.internalHandover.writer.RingSound := by
  unfold Block.internalHandover
  generalize b.master.waiters = waiters
  induction waiters generalizing b with
  | nil => exact h
  | cons w rest ih =>
    unfold Block.drainWaiters
    simp only
    split
    · exact ih (Block.handWaiter_ringSound (b := { b with master := { b.master with waiters := rest } }) h w)
    · exact h

/-! ### Requests at memory (R140, R141, R162) -/

theorem Block.ownerDone_ringSound (h : b.writer.RingSound) (o : EntryOwner) (data : List Beat) :
    (b.ownerDone o data).writer.RingSound := by
  unfold Block.ownerDone
  split
  · simpa using h
  · exact Block.slotDone_ringSound h _
  · exact h

theorem Block.ownerFails_ringSound (h : b.writer.RingSound) (o : EntryOwner) :
    (b.ownerFails o).writer.RingSound := by
  unfold Block.ownerFails
  split
  · simpa using h
  · exact Block.slotFailed_ringSound h _
  · exact h

theorem Block.memoryResponse_ringSound (h : b.writer.RingSound) (tag : Nat) (r : Response) (data : List Beat) :
    (b.memoryResponse tag r data).writer.RingSound := by
  unfold Block.memoryResponse
  split
  · exact h
  · unfold Block.route
    split
    · simpa using h
    · exact h.of_same (by simp)
    · exact Block.ownerDone_ringSound (b := b.retire tag) h _ _
    · exact Block.ownerFails_ringSound (h.of_same (by simp)) _

theorem Block.responseTimerExpiry_ringSound (h : b.writer.RingSound) (tag : Nat) :
    (b.responseTimerExpiry tag).writer.RingSound := by
  unfold Block.responseTimerExpiry
  split
  · exact h
  · simp only [Block.timeOut]
    split
    · exact h.of_same (by simp)
    · exact Block.ownerFails_ringSound (h.of_same (by simp)) _

/-! ### The mailbox (R172, R173, R185, R188) -/

/-- A ring is configured empty and with a legal size (R172, R173). -/
theorem Block.setRing_ringSound (h : b.writer.RingSound) : b.setRing.1.writer.RingSound := by
  simp only [Block.setRing]
  split_ifs with refused
  · exact h
  · exact h
  · obtain ⟨-, legal, -⟩ := (b.ringArgumentsOk_iff _ _ _).1 (by simpa using refused)
    exact RecordWriter.ringSound_updateIrq rfl rfl legal (by simp [RecordWriter.occupancy])

theorem Block.takeCommand_ringSound (h : b.writer.RingSound) (inHand : Bool) :
    (b.takeCommand inHand).writer.RingSound := by
  simp only [Block.takeCommand, Block.recordCommand_frame]
  by_cases kind : b.decoder.kind = 3
  · rw [kind]
    exact Block.setRing_ringSound h
  · rwa [b.decideCommand_writer kind]

/-- What the mailbox decoder makes of a copied write (R188). -/
theorem Block.decodeCopy_ringSound (h : b.writer.RingSound) (c : MailboxCopy) (inHand : Bool) :
    (b.decodeCopy c inHand).writer.RingSound := by
  have merged : (b.mergeCopy c).writer.RingSound := by simpa using h
  simp only [Block.decodeCopy]
  split_ifs
  · exact Block.takeCommand_ringSound (Block.takeConsumer_ringSound merged _) inHand
  · exact Block.takeConsumer_ringSound merged _
  · exact Block.takeCommand_ringSound merged inHand
  · exact merged

theorem Block.arbiterGrant_ringSound (h : b.writer.RingSound) (pick : Nat) (inHand : Bool) :
    (b.arbiterGrant pick inHand).writer.RingSound := by
  unfold Block.arbiterGrant
  split
  · unfold Block.grant
    split
    · next i w _ =>
      have sent : ∀ tag, (b.forwardWrite i w tag).writer.RingSound := fun tag => by simpa [Block.forwardWrite] using h
      unfold Block.afterWrite
      split
      · split
        · exact (sent _).of_same (Block.report_atRing _ _)
        · split
          · exact sent _
          · exact Block.decodeCopy_ringSound (sent _) _ inHand
      · exact sent _
    · simpa [Block.forwardRead] using h
    · simpa [Block.forwardInternal] using h
  · exact h

/-! ### Every command -/

theorem exec_keeps_ringSound {c : Instr} {s t : State} (hs : s.block.writer.RingSound) (h : exec c s = .next t) :
    t.block.writer.RingSound := by
  have copied : ∀ {copy inHand}, (s.onBlock fun b => b.decodeCopy copy inHand) = .next t →
      t.block.writer.RingSound := fun hf => onBlock_block hf ▸ Block.decodeCopy_ringSound hs _ _
  have command : ∀ {kind fields inHand}, (s.onBlock fun b => b.commandWrite kind fields inHand) = .next t →
      t.block.writer.RingSound := fun hf => copied hf
  cases c with
  | fullReset kind straps contain => cases h; exact RecordWriter.fresh_ringSound
  | writeRequest i r => cases h; exact hs.of_same (s.block.writeRequest_atRing i r)
  | readRequest i r => cases h; exact hs.of_same (s.block.readRequest_atRing i r)
  | writeBeat i x => cases h; exact hs.of_same (s.block.writeBeat_atRing i x)
  | burstOffer => cases h; exact hs.of_same (congrArg _ s.block.burstOffer_writer)
  | segment => cases h; exact hs.of_same s.block.segment_atRing
  | closing => cases h; exact hs.of_same s.block.closingWork_atRing
  | encoderStep x y => cases h; exact hs.of_same (s.block.encoderSample_atRing (x, y))
  | illegalStep => cases h; exact hs.of_same s.block.illegalStep_atRing
  | boardEdgeTrailing => cases h; exact hs.of_same s.block.boardEdgeTrailing_atRing
  | boardEdgeLeading => cases h; exact hs.of_same s.block.boardEdgeLeading_atRing
  | boardEdgeSample x => cases h; exact hs.of_same (s.block.edgeSample_atRing x)
  | deadTimeEnd => cases h; exact hs.of_same (congrArg _ s.block.deadTimeEnd_writer)
  | arbiterGrant pick inHand => cases h; exact Block.arbiterGrant_ringSound hs pick inHand
  | mailboxShadowWrite bytes => exact copied h
  | memoryResponse tag r data => cases h; exact Block.memoryResponse_ringSound hs tag r data
  | responseTimerExpiry tag => cases h; exact Block.responseTimerExpiry_ringSound hs tag
  | fetchReadIssue => cases h; exact hs.of_same (congrArg _ s.block.fetchReadIssue_writer)
  | ringSlotWrite => cases h; exact Block.ringSlotWrite_ringSound hs
  | internalHandover => cases h; exact Block.internalHandover_ringSound hs
  | consumerUpdate m a bytes => exact copied h
  | loadProgram a => exact command h
  | abortLoad => exact command h
  | setRing a n i => exact command h
  | setLine a => exact command h
  | setPortPolicy i p f l => exact command h
  | clearLog n => exact command h
  | resumePort n => exact command h
  | releaseGate => exact command h
  | inspectionReset inHand => exact command h
  | unknownKind k => exact command h

/-- Settles O52: an index moves, or a ring is configured, only so that the records fit; a tick leaves the writer. -/
theorem everyStepKeepsTheRingSound : Obligations.EveryStepKeepsTheRingSound := by
  unfold Obligations.EveryStepKeepsTheRingSound
  intro s t hs h
  unfold step at h
  split at h
  · cases h
    exact hs
  · next rest _ => exact exec_keeps_ringSound (s := { s with pending := rest }) hs h

end Sys2Proof.Machine
end

section
/-! SUPPORT. What CONSUMER_UPDATE and SET_RING make of the record writer (R172, R173, R177 to R179, R187; O34, O36). -/

namespace Sys2Proof.Machine

/-! ### CONSUMER_UPDATE (R177, R187) -/

/-- A write to the consumer index word alone changes its shadow and hands over the shadow's value; it takes no command
(R187, R188). -/
theorem Block.decodeCopy_word (b : Block) (master : MasterId) (addr : Addr) {bytes : Vector (Option Byte) 4}
    (enabled : (⟨master, addr, noBytes, bytes⟩ : MailboxCopy).enablesWord = true) (inHand : Bool) :
    let d := { b.decoder with consumerWord := mergeShadow b.decoder.consumerWord bytes }
    b.decodeCopy ⟨master, addr, noBytes, bytes⟩ inHand =
      ({ b with decoder := d } : Block).takeConsumer ⟨d.consumerValue, master, addr⟩ := by
  have noKind : (⟨master, addr, noBytes, bytes⟩ : MailboxCopy).enablesKind = false := by
    simp [MailboxCopy.enablesKind, noBytes]
  simp only [Block.decodeCopy, enabled, noKind, Block.mergeCopy, mergeShadow_noBytes, Bool.false_and, if_true,
    Bool.false_eq_true, if_false]

/-- The number that four bytes spell, the lowest first (R198). -/
theorem leNat_four (v : Vector Byte 4) :
    leNat v.toList = v[0].toNat + 256 * (v[1].toNat + 256 * (v[2].toNat + 256 * v[3].toNat)) := by
  have bytes : v.toList = [v[0], v[1], v[2], v[3]] := by
    apply List.ext_getElem (by simp)
    intro k h _
    have : k < 4 := by simpa using h
    interval_cases k <;> simp
  simp [bytes, leNat]

/-- A consumer index taken or clamped, with RING_IRQ at its new level (R177, R179). -/
theorem RecordWriter.updateIrq_consumer {w : RecordWriter} {ring : Ring} (configured : w.ring = some ring)
    (consumer : Counter) : ({ w with consumer := consumer } : RecordWriter).updateIrq =
      { w with consumer := consumer, ringIrq := ring.irqOn && decide (w.producer ≠ consumer) } := by
  have level := RecordWriter.irqLevel_of_ring (w := { w with consumer := consumer }) configured
  simp only [RecordWriter.updateIrq, level]

/-- A consumer index clamped to the producer index leaves no record, and RING_IRQ inactive (R177, R179). -/
theorem RecordWriter.updateIrq_clamped {w : RecordWriter} {ring : Ring} (configured : w.ring = some ring) :
    ({ w with consumer := w.producer } : RecordWriter).updateIrq =
      { w with consumer := w.producer, ringIrq := false } := by
  rw [RecordWriter.updateIrq_consumer configured]
  simp

section TakeConsumer

variable {b : Block} (u : ConsumerUpdate)

theorem Block.takeConsumer_unset (unset : b.writer.ring = none) : b.takeConsumer u = b := by
  simp only [Block.takeConsumer, unset]

theorem Block.takeConsumer_busy (configured : b.writer.ring ≠ none) (busy : b.writer.slotWrite ≠ none) :
    b.takeConsumer u = { b with writer := { b.writer with heldUpdate := some u } } := by
  obtain ⟨ring, configured⟩ := Option.ne_none_iff_exists'.1 configured
  obtain ⟨n, busy⟩ := Option.ne_none_iff_exists'.1 busy
  simp only [Block.takeConsumer, configured, busy]

theorem Block.takeConsumer_idle (idle : b.writer.slotWrite = none) : b.takeConsumer u = b.applyConsumer u := by
  rcases configured : b.writer.ring with _ | ring <;>
    simp only [Block.takeConsumer, Block.applyConsumer, configured, idle]

end TakeConsumer

/-- Settles O34, by the ring, the slot write in progress and the distance of the value from the producer index. -/
theorem consumerUpdateIsAppliedHeldOrClamped : Obligations.ConsumerUpdateIsAppliedHeldOrClamped := by
  unfold Obligations.ConsumerUpdateIsAppliedHeldOrClamped
  intro s master addr bytes wellFormed word v merged result
  have enabled : (⟨master, addr, noBytes, bytes⟩ : MailboxCopy).enablesWord = true := by
    obtain ⟨x, hx, enabled⟩ := List.any_eq_true.1 wellFormed
    exact List.any_eq_true.2 ⟨x, hx, Option.isSome_iff_ne_none.2 (by simpa using enabled)⟩
  have value : merged.decoder.consumerValue = v := congrArg (BitVec.ofNat 32) (leNat_four word)
  have taken : result = .next (s.withBlock (merged.takeConsumer ⟨v, master, addr⟩)) :=
    value ▸ congrArg (fun b => Host.Outcome.next (s.withBlock b))
      (s.block.decodeCopy_word master addr enabled false)
  rw [taken]
  refine ⟨fun unset => ?_, fun ring configured => ⟨fun busy => ?_, fun idle within => ?_, fun idle beyond => ?_⟩⟩
  · rw [Block.takeConsumer_unset (b := merged) _ unset]
  · rw [Block.takeConsumer_busy (b := merged) _ (Option.ne_none_iff_exists'.2 ⟨ring, configured⟩) busy]
  · rw [Block.takeConsumer_idle (b := merged) _ idle, Block.applyConsumer_of_ring (b := merged) configured,
      if_pos within, RecordWriter.updateIrq_consumer (w := merged.writer) configured]
  · rw [Block.takeConsumer_idle (b := merged) _ idle, Block.applyConsumer_of_ring (b := merged) configured,
      if_neg (Nat.not_le.2 beyond), RecordWriter.updateIrq_clamped (w := merged.writer) configured]

/-! ### SET_RING (R172, R173) -/

/-- SET_RING with good arguments where no ring holds a record (R172). -/
theorem Block.setRing_configures {b : Block} {base size irq : Nat} (hb : b.decoder.argument 8 8 = base)
    (hs : b.decoder.argument 16 4 = size) (hi : b.decoder.argument 20 1 = irq) (good : b.RingInRange base size irq)
    (empty : b.writer.ring = none ∨ b.writer.producer = b.writer.consumer) :
    b.setRing = (b.configureRing ⟨BitVec.ofNat 40 base, size, irq == 1⟩, .done) := by
  have ok := (b.ringArgumentsOk_iff base size irq).2 good
  have free : (b.writer.ring.isSome && b.writer.producer != b.writer.consumer) = false := by
    rcases empty with h | h <;> simp [h]
  simp only [Block.setRing, hb, hs, hi, ok, free, Bool.not_true, Bool.false_eq_true, if_false]

/-- The slot fields of SET_RING (R202). -/
def ringFields (base : BitVec 64) (size : BitVec 32) (irq : Byte) : List SlotField :=
  [⟨8, 8, base.toNat⟩, ⟨16, 4, size.toNat⟩, ⟨20, 1, irq.toNat⟩]

/-- SET_RING's arguments, as its row carries them (R202). -/
theorem Block.copied_ringFields (b : Block) (base : BitVec 64) (size : BitVec 32) (irq : Byte) :
    let d := (b.copied 3 (ringFields base size irq)).decoder
    d.argument 8 8 = base.toNat ∧ d.argument 16 4 = size.toNat ∧ d.argument 20 1 = irq.toNat := by
  have arguments := b.copied_arguments (kind := 3) (fields := ringFields base size irq)
    (by simp [ringFields, SlotField.apart]) (by simpa [ringFields] using ⟨base.isLt, size.isLt, irq.isLt⟩)
  simpa only [ringFields, List.forall_mem_cons, List.not_mem_nil, false_implies, implies_true, and_true] using arguments

/-- The record writer of a ring just configured: empty, with RING_IRQ inactive (R173, R179). -/
theorem Block.configureRing_writer (b : Block) (ring : Ring) : (b.configureRing ring).writer =
    { b.writer with
      ring := some ring, producer := 0, consumer := 0, slotWrite := none, heldUpdate := none, ringIrq := false } := by
  simp [Block.configureRing, RecordWriter.updateIrq, RecordWriter.irqLevel]

/-- SET_RING's row with good arguments where no ring holds a record (R172, R173, R185). -/
theorem Block.commandWrite_setRing {b : Block} {base : BitVec 64} {size : BitVec 32} {irq : Byte}
    (good : b.RingInRange base.toNat size.toNat irq.toNat)
    (empty : b.writer.ring = none ∨ b.writer.producer = b.writer.consumer) :
    b.commandWrite 3 (ringFields base size irq) false = { b.askRewrite with
      decoder := { b.decoder.took 3 (ringFields base size irq) .done with consumerWord := Vector.replicate 4 0 }
      writer := (b.configureRing ⟨BitVec.ofNat 40 base.toNat, size.toNat, irq.toNat == 1⟩).writer } := by
  obtain ⟨hb, hs, hi⟩ := b.copied_ringFields base size irq
  have inRange := (b.copied_ringInRange 3 (ringFields base size irq) _ _ _).2 good
  have decided : (b.copied 3 (ringFields base size irq)).decideCommand 3 false =
      ((b.copied 3 (ringFields base size irq)).configureRing
        ⟨BitVec.ofNat 40 base.toNat, size.toNat, irq.toNat == 1⟩, .done) := by
    simp only [Block.decideCommand]
    exact Block.setRing_configures hb hs hi inRange (by simpa only [Block.copied_frame] using empty)
  rw [b.commandWrite_decided 3 _ false (by decide) (by decide) _ _ decided (.inl (by simp))]
  apply Block.eq_of_parts
  case h5 => simp [Block.configureRing, Block.copied, Decoder.took]
  case h11 => simp only [Block.configureRing, Block.copied]
  all_goals simp

/-- Settles O36: the owner configures the ring, and the command recorded asks for the rewrite. -/
theorem setRingConfiguresAnEmptyRing : Obligations.SetRingConfiguresAnEmptyRing := by
  unfold Obligations.SetRingConfiguresAnEmptyRing
  intro s base size irq good empty
  have enable : (irq.toNat == 1) = decide (irq = 1) := by
    rw [Bool.eq_iff_iff]
    simp [← BitVec.toNat_inj]
  show Host.Outcome.next (s.withBlock (s.block.commandWrite 3 (ringFields base size irq) false)) = _
  rw [Block.commandWrite_setRing good empty, Block.configureRing_writer, enable]
  rfl

end Sys2Proof.Machine
end

section
/-! SUPPORT. Status rewrites asked for (R194; O32), and the commands of the mailbox that change nothing but the shadow
or nothing but what every command take does (R183 to R186; O33, O42). -/

namespace Sys2Proof.Machine

/-! ### Status rewrites (R194) -/

theorem InternalWork.isStatus_iff (w : InternalWork) : w.isStatus = true ↔ w = .statusBlock := by
  cases w <;> simp [InternalWork.isStatus]

theorem Block.statusPending_iff (b : Block) :
    b.statusPending = true ↔ ∃ q ∈ b.master.queue, q.work = .statusBlock := by
  simp only [Block.statusPending, List.any_eq_true, InternalWork.isStatus_iff]

theorem Block.rewriteWanted_iff (b : Block) : b.rewriteWanted = true ↔ Waiter.statusBlock ∈ b.master.waiters :=
  List.contains_iff_mem

/-- Settles O32, by whether a rewrite is pending or wanted, and whether it may be handed over now. -/
theorem rewriteIsAskedForOnce : Obligations.RewriteIsAskedForOnce := by
  unfold Obligations.RewriteIsAskedForOnce
  intro b
  refine ⟨fun h => ?_, fun unpending unwanted => ?_⟩
  · rw [← b.statusPending_iff, ← b.rewriteWanted_iff] at h
    exact Block.askRewrite_of_pending h
  · have fresh : ¬ (b.statusPending || b.rewriteWanted) = true := by
      rw [Bool.or_eq_true, b.statusPending_iff, b.rewriteWanted_iff]
      rintro (⟨q, hq, status⟩ | wanted)
      · exact unpending q hq status
      · exact unwanted wanted
    refine ⟨fun room idle => ?_, fun full => ?_⟩
    · rw [Block.askRewrite, if_neg fresh, if_pos (b.mayHandOver_iff.2 ⟨room, idle⟩)]
      simp only [Block.enqueue, idle]
    · rw [Block.askRewrite, if_neg fresh, if_neg (Block.mayHandOver_of_full full), Block.wait]

/-! ### The decoder acts on a copy (R183, R187, R188) -/

/-- The block once the shadows have a copy's enabled bytes and the record writer has the consumer update: what a
command of the copy acts on (R188). -/
def Block.consumed (b : Block) (c : MailboxCopy) : Block :=
  if c.enablesWord then
    (b.mergeCopy c).takeConsumer ⟨(b.mergeCopy c).decoder.consumerValue, c.master, c.addr⟩
  else b.mergeCopy c

theorem Block.decodeCopy_takes {b : Block} {c : MailboxCopy} (enables : c.enablesKind = true)
    (named : (b.consumed c).decoder.kind ≠ 0) (inHand : Bool) :
    b.decodeCopy c inHand = (b.consumed c).takeCommand inHand :=
  if_pos (by rw [enables, Bool.true_and]; exact bne_iff_ne.2 named)

theorem Block.decodeCopy_rests {b : Block} {c : MailboxCopy}
    (rests : ¬ c.enablesKind = true ∨ (b.consumed c).decoder.kind = 0) (inHand : Bool) :
    b.decodeCopy c inHand = b.consumed c :=
  if_neg (by
    rw [Bool.and_eq_true, bne_iff_ne]
    rintro ⟨enables, named⟩
    exact rests.elim (· enables) named)

/-- A write of slot bytes alone is no consumer update. -/
theorem Block.consumed_slotCopy (b : Block) (bytes : Vector (Option Byte) 64) : b.consumed (slotCopy bytes) =
    { b with decoder := { b.decoder with slot := mergeShadow b.decoder.slot bytes } } := by
  rw [Block.consumed, slotCopy_enablesWord, if_neg Bool.false_ne_true, Block.mergeCopy_slotCopy]

/-! ### MAILBOX_SHADOW_WRITE (R183) -/

/-- A field of bytes that are all 0. -/
theorem fieldAt_zero {bytes : List Byte} {offset size : Nat} (h : ∀ k < size, bytes[offset + k]? = some 0) :
    fieldAt bytes offset size = 0 := by
  rw [fieldAt_eq_sum]
  refine List.sum_eq_zero fun x hx => ?_
  obtain ⟨k, hk, rfl⟩ := List.mem_map.1 hx
  simp [h k (List.mem_range.1 hk)]

/-- A shadow write that takes no command enables no byte of the kind word, or leaves 0 there (R183, R184). -/
theorem takesNoCommand_rests {bytes : Vector (Option Byte) 64} (h : takesNoCommand bytes = true)
    (old : Vector Byte 64) :
    ¬ (slotCopy bytes).enablesKind = true ∨ fieldAt (mergeShadow old bytes).toList 0 4 = 0 := by
  simp only [takesNoCommand, kindBytes, Bool.or_eq_true, List.all_cons, List.all_nil, Bool.and_true, Bool.and_eq_true,
    beq_iff_eq] at h
  refine h.imp (fun ⟨h0, h1, h2, h3⟩ => ?_) (fun ⟨h0, h1, h2, h3⟩ => ?_)
  · simp [MailboxCopy.enablesKind, slotCopy, h0, h1, h2, h3]
  · refine fieldAt_zero fun k hk => ?_
    interval_cases k <;> simp [mergeShadow, h0, h1, h2, h3]

/-- Settles O33: the copy is no consumer update, and its kind word names no command. -/
theorem shadowWriteChangesTheShadowAlone : Obligations.ShadowWriteChangesTheShadowAlone := by
  unfold Obligations.ShadowWriteChangesTheShadowAlone
  intro s bytes wellFormed
  have rests := takesNoCommand_rests wellFormed s.block.decoder.slot
  have copied := s.block.consumed_slotCopy bytes
  show Host.Outcome.next (s.withBlock (s.block.decodeCopy (slotCopy bytes) false)) = _
  rw [Block.decodeCopy_rests (by rw [copied]; exact rests), copied]
  rfl

/-! ### What the owner of a command decides (R185, R186) -/

/-- What every decision of an owner keeps: a refused command changes nothing (R186), and any other leaves the command
slot and the count to the mailbox decoder (R185). -/
structure Block.Decides (b : Block) (d : Block × CommandOutcome) : Prop where
  refused : d.2.refuses = true → d.1 = b
  slot : d.1.decoder.slot = b.decoder.slot
  count : d.1.decoder.commandCount = b.decoder.commandCount

namespace Block.Decides

variable {b c : Block} {o : CommandOutcome}

theorem unchanged (b : Block) (o : CommandOutcome) : b.Decides (b, o) := ⟨fun _ => rfl, rfl, rfl⟩

/-- An owner that acts refuses nothing. -/
theorem acts (taken : o.refuses = false) (slot : c.decoder.slot = b.decoder.slot)
    (count : c.decoder.commandCount = b.decoder.commandCount) : b.Decides (c, o) :=
  ⟨fun h => by simp [taken] at h, slot, count⟩

theorem acts_elsewhere (taken : o.refuses = false) (same : c.decoder = b.decoder) : b.Decides (c, o) :=
  acts taken (by rw [same]) (by rw [same])

end Block.Decides

section

variable (b : Block)

theorem Block.decides_loadProgram : b.Decides b.loadProgram := by
  simp only [Block.loadProgram]
  split
  · exact .unchanged b _
  · split
    · exact .unchanged b _
    · exact .acts_elsewhere rfl (by simp)

theorem Block.decides_abortLoad : b.Decides b.abortLoad := by
  unfold Block.abortLoad
  split
  · exact .acts_elsewhere rfl (by simp)
  · exact .unchanged b _

theorem Block.decides_setRing : b.Decides b.setRing := by
  simp only [Block.setRing]
  split
  · exact .unchanged b _
  · split
    · exact .unchanged b _
    · exact .acts rfl rfl rfl

theorem Block.setGateMode_decoder (g : GateModeArg) : (b.setGateMode g).decoder = b.decoder := by
  unfold Block.setGateMode
  split <;> simp

theorem Block.decides_setLine : b.Decides b.setLine := by
  unfold Block.setLine
  split
  · exact .unchanged b _
  · split
    · exact .unchanged b _
    · split
      · exact .unchanged b _
      · exact .acts_elsewhere rfl (Block.setGateMode_decoder _ _)

theorem Block.decides_setPortPolicy : b.Decides b.setPortPolicy := by
  simp only [Block.setPortPolicy]
  split
  · exact .acts_elsewhere rfl (by split <;> simp)
  · exact .unchanged b _

theorem Block.decides_clearLog : b.Decides b.clearLog := by
  unfold Block.clearLog
  split
  · exact .acts_elsewhere rfl rfl
  · exact .unchanged b _

theorem Block.decides_resumePort : b.Decides b.resumePort := by
  unfold Block.resumePort
  split
  · exact .unchanged b _
  · split
    · exact .unchanged b _
    · split
      · exact .unchanged b _
      · exact .acts_elsewhere rfl (by simp)

theorem Block.decides_releaseGate : b.Decides b.releaseGate := by
  unfold Block.releaseGate
  split
  · exact .acts_elsewhere rfl (by simp)
  · exact .unchanged b _

theorem Block.decides_inspectionReset (inHand : Bool) : b.Decides (b.inspectionReset inHand) := by
  unfold Block.inspectionReset
  split
  · exact .unchanged b _
  · split
    · exact .acts rfl rfl rfl
    · exact .acts rfl (by simp [Block.takeInspectionReset]) (by simp [Block.takeInspectionReset])

theorem Block.decides (kind : Nat) (inHand : Bool) : b.Decides (b.decideCommand kind inHand) := by
  unfold Block.decideCommand
  split
  · exact b.decides_loadProgram
  · exact b.decides_abortLoad
  · exact b.decides_setRing
  · exact b.decides_setLine
  · exact b.decides_setPortPolicy
  · exact b.decides_clearLog
  · exact b.decides_resumePort
  · exact b.decides_releaseGate
  · exact b.decides_inspectionReset inHand
  · exact .unchanged b _

end

/-! ### Command rows (R185, R202) -/

/-- Whether the command's operand says that a segment is in hand; INSPECTION_RESET alone has it (R192). -/
def commandInHand : Instr → Bool
  | .inspectionReset inHand => inHand
  | _ => false

/-- A command row's write is what its command does. -/
theorem exec_commandRow {c : Instr} {kind : Nat} {fields : List SlotField} (row : commandRow c = some (kind, fields))
    (s : State) : exec c s = .next (s.withBlock (s.block.commandWrite kind fields (commandInHand c))) := by
  cases c <;> cases row <;> rfl

theorem commandRow_kind {c : Instr} {kind : Nat} {fields : List SlotField} (row : commandRow c = some (kind, fields))
    (wellFormed : c.wellFormed = true) : kind ≠ 0 ∧ kind < 2 ^ 32 := by
  cases c
  case unknownKind k =>
    cases row
    have beyond : 9 < k.toNat := by simpa [Instr.wellFormed] using wellFormed
    exact ⟨by omega, k.isLt⟩
  all_goals cases row <;> decide

/-- No owner knows the kind of an UNKNOWN_KIND row (R185). -/
theorem Block.decideCommand_unknown (b : Block) {kind : Nat} (beyond : 9 < kind) (inHand : Bool) :
    b.decideCommand kind inHand = (b, .unknownKind) :=
  match kind, beyond with
  | _ + 10, _ => rfl

theorem Block.recordCommand_decoder (b : Block) (kind : Nat) (o : CommandOutcome) :
    (b.recordCommand kind o).decoder = { b.decoder with
      commandCount := b.decoder.commandCount + 1, lastKind := BitVec.ofNat 32 kind, lastOutcome := o } := by
  simp [Block.recordCommand]

/-- A row's write, as the decision on the copied write and its record (R185). -/
theorem Block.commandWrite_recordCommand (b : Block) {kind : Nat} (fields : List SlotField) (inHand : Bool)
    (h0 : kind ≠ 0) (h : kind < 2 ^ 32) : b.commandWrite kind fields inHand =
      ((b.copied kind fields).decideCommand kind inHand).1.recordCommand kind
        ((b.copied kind fields).decideCommand kind inHand).2 :=
  b.commandWrite_eq kind fields inHand h0 h

/-- What a row's write leaves in the mailbox decoder (R183, R185). -/
theorem Block.commandWrite_records (b : Block) {kind : Nat} (fields : List SlotField) (inHand : Bool) (h0 : kind ≠ 0)
    (h : kind < 2 ^ 32) :
    (b.commandWrite kind fields inHand).decoder.slot = mergeShadow b.decoder.slot (commandBytes kind fields)
    ∧ (b.commandWrite kind fields inHand).decoder.commandCount = b.decoder.commandCount + 1
    ∧ (b.commandWrite kind fields inHand).decoder.lastKind = BitVec.ofNat 32 kind := by
  obtain ⟨-, slot, count⟩ := (b.copied kind fields).decides kind inHand
  have same : (b.copied kind fields).decoder.commandCount = b.decoder.commandCount := by simp only [Block.copied]
  rw [b.commandWrite_recordCommand fields inHand h0 h, Block.recordCommand_decoder]
  refine ⟨slot, ?_, rfl⟩
  simp only [count, same]

/-- A refused command changes nothing but what every command take does (R186). -/
theorem Block.commandWrite_refused (b : Block) {kind : Nat} (fields : List SlotField) (inHand : Bool) (h0 : kind ≠ 0)
    (h : kind < 2 ^ 32) {o : CommandOutcome} (outcome : ((b.copied kind fields).decideCommand kind inHand).2 = o)
    (refused : o.refuses = true) :
    b.commandWrite kind fields inHand = { b.askRewrite with decoder := b.decoder.took kind fields o } :=
  b.commandWrite_same kind fields inHand h0 h o
    (Prod.ext (((b.copied kind fields).decides kind inHand).refused (outcome ▸ refused)) outcome)

/-- Settles O42: the owner's decision, recorded by the mailbox decoder. -/
theorem refusedCommandsAreStillCounted : Obligations.RefusedCommandsAreStillCounted := by
  unfold Obligations.RefusedCommandsAreStillCounted
  intro s c kind fields row wellFormed
  obtain ⟨h0, h⟩ := commandRow_kind row wellFormed
  have outcome := s.block.commandWrite_outcome fields (commandInHand c) h0 h
  obtain ⟨slot, count, lastKind⟩ := s.block.commandWrite_records fields (commandInHand c) h0 h
  refine ⟨_, exec_commandRow row s, slot, count, lastKind, ?_, fun refused => ?_⟩
  · rintro k rfl
    cases row
    rw [outcome, Block.decideCommand_unknown _ (by simpa [Instr.wellFormed] using wellFormed)]
  · exact s.block.commandWrite_refused fields _ h0 h outcome.symm refused

end Sys2Proof.Machine
end

section
/-! SUPPORT. What the mailbox decoder makes of a copied write (R163, R183, R184, R187, R188, R202; O25). -/

namespace Sys2Proof.Machine

/-! ### The enabled bytes of a write (R183, R187) -/

/-- The byte of the write's beat at an address, if its strobe is set, and otherwise the byte that stood there. -/
theorem BufferedWrite.enabledByte_getD (w : BufferedWrite) (a : Nat) (old : Byte) (range : Range) :
    (if (byteRange w.addr w.beats).overlaps range then w.enabledByte a else none).getD old =
      if (byteRange w.addr w.beats).overlaps range ∧ w.addr.toNat / 16 ≤ a / 16 then
        match w.taken[a / 16 - w.addr.toNat / 16]? with
        | some t => if t.strobes.getLsbD (a % 16) then t.data.extractLsb' (8 * (a % 16)) 8 else old
        | none => old
      else old := by
  by_cases reached : (byteRange w.addr w.beats).overlaps range = true
  · by_cases carried : w.addr.toNat / 16 ≤ a / 16
    · rw [if_pos reached, if_pos ⟨reached, carried⟩, BufferedWrite.enabledByte, if_neg (by omega)]
      rcases w.taken[a / 16 - w.addr.toNat / 16]? with _ | t
      · rfl
      · by_cases strobe : t.strobes.getLsbD (a % 16) = true <;> simp only [strobe] <;> rfl
    · rw [if_pos reached, if_neg (fun h => carried h.2), BufferedWrite.enabledByte, if_pos (by omega)]
      rfl
  · rw [if_neg reached, if_neg (fun h => reached h.1)]
    rfl

/-- A byte of a shadow after a write's enabled bytes from `base` on have been merged in. -/
theorem BufferedWrite.merged_byte (w : BufferedWrite) (base : Nat) {n k : Nat} {shadow : Vector Byte n} {old : Byte}
    (hk : k < n) (held : shadow[k]? = some old) :
    (mergeShadow shadow (w.enabledBytes base n))[k]? = some
      (if (byteRange w.addr w.beats).overlaps ⟨base, base + n - 1⟩ ∧ w.addr.toNat / 16 ≤ (base + k) / 16 then
        match w.taken[(base + k) / 16 - w.addr.toNat / 16]? with
        | some t =>
          if t.strobes.getLsbD ((base + k) % 16) then t.data.extractLsb' (8 * ((base + k) % 16)) 8 else old
        | none => old
      else old) := by
  obtain ⟨_, rfl⟩ := Vector.getElem?_eq_some_iff.1 held
  rw [Vector.getElem?_eq_getElem hk, mergeShadow_getElem _ _ k hk, BufferedWrite.enabledBytes, Vector.getElem_ofFn]
  exact congrArg some (w.enabledByte_getD _ _ _)

/-! ### A command by the bytes of the shadow (R185, R202) -/

/-- A byte of a number held as a field, little-endian (R198). -/
theorem fieldAt_byte (bytes : List Byte) {offset size k : Nat} (hk : k < size) :
    BitVec.ofNat 8 (fieldAt bytes offset size / 256 ^ k) = (bytes[offset + k]?).getD 0 := by
  induction k generalizing offset size with
  | zero =>
    obtain ⟨size, rfl⟩ : ∃ n, size = n + 1 := ⟨size - 1, by omega⟩
    have byte : ((bytes[offset]?).getD 0).toNat < 256 := ((bytes[offset]?).getD 0).isLt
    apply BitVec.eq_of_toNat_eq
    rw [fieldAt_succ, BitVec.toNat_ofNat, pow_zero, Nat.div_one, Nat.add_mul_mod_self_left, Nat.mod_eq_of_lt byte,
      Nat.add_zero]
  | succ k ih =>
    obtain ⟨size, rfl⟩ : ∃ n, size = n + 1 := ⟨size - 1, by omega⟩
    have byte : ((bytes[offset]?).getD 0).toNat < 256 := ((bytes[offset]?).getD 0).isLt
    rw [fieldAt_succ, pow_succ', ← Nat.div_div_eq_div_mul, Nat.add_mul_div_left _ _ (by decide),
      Nat.div_eq_of_lt byte, Nat.zero_add, ih (by omega), Nat.add_assoc, Nat.add_comm 1 k]

/-- Fields with the values that the shadow holds at their places: a write that carries them changes nothing. -/
def Decoder.Holds (d : Decoder) (fields : List SlotField) : Prop :=
  ∀ f ∈ fields, f.offset + f.size ≤ 64 ∧ f.value = d.argument f.offset f.size

theorem Decoder.Holds.nil {d : Decoder} : d.Holds [] := List.forall_mem_nil _

theorem Decoder.Holds.cons {d : Decoder} {offset size value : Nat} {rest : List SlotField} (within : offset + size ≤ 64)
    (same : value = d.argument offset size) (holds : d.Holds rest) : d.Holds (⟨offset, size, value⟩ :: rest) :=
  List.forall_mem_cons.2 ⟨⟨within, same⟩, holds⟩

theorem Decoder.Holds.slotByte {d : Decoder} {fields : List SlotField} (holds : d.Holds fields) {k : Nat}
    (hk : k < 64) :
    (slotByte k fields).getD d.slot[k] = d.slot[k] := by
  induction fields with
  | nil => rfl
  | cons f rest ih =>
    obtain ⟨⟨-, value⟩, others⟩ := List.forall_mem_cons.1 holds
    unfold Machine.slotByte
    split
    · next within =>
      have place : f.offset + (k - f.offset) = k := by omega
      rw [Option.getD_some, value, Decoder.argument, fieldAt_byte _ (by omega), place]
      simp [hk]
    · exact ih others

/-- A write of what the shadow holds leaves the block as it was. -/
theorem Block.copied_held (b : Block) {fields : List SlotField} (holds : b.decoder.Holds fields) :
    b.copied b.decoder.kind fields = b := by
  have all : b.decoder.Holds (⟨0, 4, b.decoder.kind⟩ :: fields) := .cons (by decide) rfl holds
  have slot : mergeShadow b.decoder.slot (commandBytes b.decoder.kind fields) = b.decoder.slot := by
    ext k hk
    rw [mergeShadow_getElem _ _ k hk, commandBytes_getElem _ _ k hk, all.slotByte hk]
  simp only [Block.copied, slot]

/-- What the command that the shadow names does as a row of its own: the kind of the shadow, fields that the shadow
holds, and the operand in hand where the kind asks for it (R192). -/
structure Decoder.NamesRow (d : Decoder) (inHand : Bool) (c : Instr) (fields : List SlotField) : Prop where
  row : commandRow c = some (d.kind, fields)
  holds : d.Holds fields
  operand : d.kind = 9 → commandInHand c = inHand

theorem Decoder.slotCommand_namesRow (d : Decoder) (inHand : Bool) :
    ∃ fields, d.NamesRow inHand (slotCommand d.slot inHand) fields := by
  have byte : ∀ offset, (BitVec.ofNat 8 (fieldAt d.slot.toList offset 1)).toNat = d.argument offset 1 :=
    fun offset => ofNat_fieldAt _ offset 1 8 rfl
  have half : ∀ offset, (BitVec.ofNat 16 (fieldAt d.slot.toList offset 2)).toNat = d.argument offset 2 :=
    fun offset => ofNat_fieldAt _ offset 2 16 rfl
  have word : ∀ offset, (BitVec.ofNat 32 (fieldAt d.slot.toList offset 4)).toNat = d.argument offset 4 :=
    fun offset => ofNat_fieldAt _ offset 4 32 rfl
  have long : ∀ offset, (BitVec.ofNat 64 (fieldAt d.slot.toList offset 8)).toNat = d.argument offset 8 :=
    fun offset => ofNat_fieldAt _ offset 8 64 rfl
  have names : ∀ {c kind fields}, commandRow c = some (kind, fields) → d.kind = kind → d.Holds fields →
      (kind = 9 → commandInHand c = inHand) → ∃ fields, d.NamesRow inHand c fields :=
    fun row named holds operand => ⟨_, named ▸ row, holds, named ▸ operand⟩
  unfold slotCommand
  dsimp only
  split
  · next named => exact names rfl named (.cons (by decide) (long 8) .nil) nofun
  · next named => exact names rfl named .nil nofun
  · next named =>
    exact names rfl named
      (.cons (by decide) (long 8) (.cons (by decide) (word 16) (.cons (by decide) (byte 20) .nil))) nofun
  · next named =>
    refine names rfl named ?_ nofun
    exact .cons (by decide) (word 4) (.cons (by decide) (word 8) (.cons (by decide) (word 12)
      (.cons (by decide) (word 16) (.cons (by decide) (byte 20) (.cons (by decide) (byte 21)
        (.cons (by decide) (byte 22) (.cons (by decide) (byte 23) (.cons (by decide) (byte 24) .nil))))))))
  · next named =>
    exact names rfl named (.cons (by decide) (byte 4) (.cons (by decide) (byte 5) (.cons (by decide) (byte 6)
      (.cons (by decide) (half 8) .nil)))) nofun
  · next named => exact names rfl named (.cons (by decide) (byte 4) .nil) nofun
  · next named => exact names rfl named (.cons (by decide) (byte 4) .nil) nofun
  · next named => exact names rfl named .nil nofun
  · next named => exact names rfl named .nil fun _ => rfl
  · next nine => exact names rfl (word 0).symm .nil fun h => absurd ((word 0).symm.trans h) nine

/-- A segment in hand matters to INSPECTION_RESET alone (R192). -/
theorem Block.decideCommand_inHand (b : Block) {kind : Nat} {x y : Bool} (same : kind = 9 → x = y) :
    b.decideCommand kind x = b.decideCommand kind y := by
  by_cases nine : kind = 9
  · rw [same nine]
  · unfold Block.decideCommand
    split
    case h_9 => exact absurd rfl nine
    all_goals rfl

/-- The command that the shadow names, given as a row of its own, does what the decoder does with it. -/
theorem exec_slotCommand (s : State) (inHand : Bool) (named : s.block.decoder.kind ≠ 0) :
    exec (slotCommand s.block.decoder.slot inHand) s = .next (s.withBlock (s.block.takeCommand inHand)) := by
  obtain ⟨fields, row, holds, operand⟩ := s.block.decoder.slotCommand_namesRow inHand
  rw [exec_commandRow row, Block.commandWrite_recordCommand _ _ _ named (fieldAt_lt _ 0 4), s.block.copied_held holds,
    s.block.decideCommand_inHand operand]
  rfl

/-! ### The decoder acts on a copy (R188) -/

theorem MailboxCopy.enablesWord_iff (c : MailboxCopy) :
    c.enablesWord = true ↔ ∃ k : Fin 4, (c.word[k]).isSome = true := by
  rw [MailboxCopy.enablesWord, List.any_eq_true]
  constructor
  · rintro ⟨_, mem, h⟩
    obtain ⟨k, hk, rfl⟩ := Vector.mem_iff_getElem.1 (Vector.mem_toList_iff.1 mem)
    exact ⟨⟨k, hk⟩, h⟩
  · rintro ⟨k, h⟩
    exact ⟨_, Vector.mem_toList_iff.2 (Vector.getElem_mem k.isLt), h⟩

theorem MailboxCopy.enablesKind_iff (c : MailboxCopy) :
    c.enablesKind = true ↔ ∃ k : Fin 64, k.val < 4 ∧ (c.slot[k]).isSome = true := by
  simp only [MailboxCopy.enablesKind, Bool.or_eq_true]
  constructor
  · rintro (((h | h) | h) | h)
    · exact ⟨0, by decide, h⟩
    · exact ⟨1, by decide, h⟩
    · exact ⟨2, by decide, h⟩
    · exact ⟨3, by decide, h⟩
  · rintro ⟨⟨k, hk⟩, low, h⟩
    simp only at low
    interval_cases k
    · exact .inl (.inl (.inl h))
    · exact .inl (.inl (.inr h))
    · exact .inl (.inr h)
    · exact .inr h

/-- A copy that enables no byte of the consumer index word merges slot bytes alone. -/
theorem Block.mergeCopy_slot (b : Block) {c : MailboxCopy} (plain : ¬ c.enablesWord = true) : b.mergeCopy c =
    { b with decoder := { b.decoder with slot := mergeShadow b.decoder.slot c.slot } } := by
  have word : mergeShadow b.decoder.consumerWord c.word = b.decoder.consumerWord := by
    ext k hk
    have clear : c.word[k] = none :=
      Option.not_isSome_iff_eq_none.1 fun h => plain (c.enablesWord_iff.2 ⟨⟨k, hk⟩, h⟩)
    rw [mergeShadow_getElem _ _ k hk, clear, Option.getD_none]
  rw [Block.mergeCopy, word]

theorem exec_consumerUpdate (s : State) (b : Block) (master : MasterId) (addr : Addr) (bytes : Vector (Option Byte) 4) :
    exec (.consumerUpdate master addr bytes) (s.withBlock b) =
      .next (s.withBlock (b.decodeCopy ⟨master, addr, noBytes, bytes⟩ false)) := rfl

/-- What CONSUMER_UPDATE makes of a block whose slot shadow has the copy's bytes: the copy's part before a command. -/
theorem exec_consumerUpdate_merged {s : State} {c : MailboxCopy} (enabled : c.enablesWord = true) :
    exec (.consumerUpdate c.master c.addr c.word) (s.withBlock { s.block with
      decoder := { s.block.decoder with slot := mergeShadow s.block.decoder.slot c.slot } }) =
      .next (s.withBlock (s.block.consumed c)) := by
  rw [exec_consumerUpdate, Block.decodeCopy_word _ c.master c.addr enabled, Block.consumed, if_pos enabled,
    Block.mergeCopy]

/-- Settles O25: the shadows byte by byte, and then the decoder's order. -/
theorem copyFollowsTheStrobes : Obligations.CopyFollowsTheStrobes := by
  unfold Obligations.CopyFollowsTheStrobes
  refine ⟨fun b w k a old => ⟨?_, ?_⟩, fun _ _ => ⟨rfl, rfl⟩, fun _ _ => rfl, fun s c inHand t => ?_⟩
  · rintro hk rfl held
    exact w.merged_byte _ hk held
  · rintro hk rfl held
    exact w.merged_byte _ hk held
  · intro merged enablesWord enablesKind plain updated result
    have consumed : s.block.consumed c = t := by
      by_cases enabled : c.enablesWord = true
      · have answer := (exec_consumerUpdate_merged enabled).symm.trans (updated (c.enablesWord_iff.1 enabled))
        exact congrArg State.block (Host.Outcome.next.inj answer)
      · rw [plain (mt c.enablesWord_iff.2 enabled), Block.consumed, if_neg enabled, Block.mergeCopy_slot _ enabled]
        rfl
    subst consumed
    refine ⟨fun rests => ?_, fun enables named => ?_⟩
    · exact Block.decodeCopy_rests (rests.imp_left (mt c.enablesKind_iff.1)) inHand
    · have takes : result = (s.block.consumed c).takeCommand inHand :=
        Block.decodeCopy_takes (c.enablesKind_iff.2 enables) named inHand
      rw [takes]
      exact exec_slotCommand (s.withBlock (s.block.consumed c)) inHand named

end Sys2Proof.Machine
end

section
/-! SUPPORT. Layout tables as byte strings, and beats filled from them (R198, R201, R203). -/

namespace Sys2Proof.Machine

/-! ### Little-endian bytes (R198) -/

@[simp] theorem length_leBytes (size n : Nat) : (leBytes size n).length = size := by
  induction size generalizing n with
  | zero => rfl
  | succ size ih => rw [leBytes, List.length_cons, ih]

/-- Byte `k` of a number is its digit to the base 256. -/
theorem getElem?_leBytes {size k : Nat} (h : k < size) (n : Nat) :
    (leBytes size n)[k]? = some (BitVec.ofNat 8 (n / 256 ^ k)) := by
  induction size generalizing n k with
  | zero => omega
  | succ size ih =>
    cases k with
    | zero => simp [leBytes]
    | succ k => rw [leBytes, List.getElem?_cons_succ, ih (by omega), Nat.div_div_eq_div_mul, ← pow_succ']

/-- Digit `k` of the number that bytes spell is byte `k`. -/
theorem leNat_digit {bytes : List Byte} {k : Nat} {x : Byte} (h : bytes[k]? = some x) :
    leNat bytes / 256 ^ k % 256 = x.toNat := by
  induction bytes generalizing k with
  | nil => simp at h
  | cons y rest ih =>
    have := y.isLt
    cases k with
    | zero =>
      obtain rfl : y = x := by simpa using h
      rw [leNat]
      omega
    | succ k =>
      rw [leNat, pow_succ', ← Nat.div_div_eq_div_mul, Nat.add_mul_div_left _ _ (by omega), Nat.div_eq_of_lt y.isLt,
        Nat.zero_add]
      exact ih (by simpa using h)

/-! ### Beats -/

/-- Beat `j` holds the bytes from `16 * j` on. -/
theorem getElem?_packBeats (bytes : List Byte) {n j : Nat} (h : j < n) :
    (packBeats n bytes)[j]? = some (packBeat (bytes.drop (16 * j))) := by
  induction n generalizing bytes j with
  | zero => omega
  | succ n ih =>
    cases j with
    | zero => rfl
    | succ j => rw [packBeats, List.getElem?_cons_succ, ih _ (by omega), List.drop_drop, Nat.mul_succ, Nat.add_comm]

/-- A beat holds its bytes in address order. -/
theorem beatByte_packBeat {bytes : List Byte} {k : Nat} {x : Byte} (hk : k < 16) (h : bytes[k]? = some x) :
    beatByte (packBeat bytes) k = x := by
  have whole : leNat (bytes.take 16) < 2 ^ 128 := fieldAt_lt bytes 0 16
  have digit : leNat (bytes.take 16) / 256 ^ k % 256 = x.toNat := leNat_digit (by rw [List.getElem?_take_of_lt hk, h])
  have shift : 2 ^ (8 * k) = 256 ^ k := by rw [pow_mul]; rfl
  apply BitVec.eq_of_toNat_eq
  rw [beatByte, packBeat, BitVec.extractLsb'_toNat, BitVec.toNat_ofNat, Nat.mod_eq_of_lt whole,
    Nat.shiftRight_eq_div_pow, shift]
  exact digit

/-! ### Layout tables (R198) -/

/-- The bytes that a table spells, row after row. -/
def layoutBytes (rows : List LayoutRow) : List Byte := rows.flatMap fun r => leBytes r.size r.value

@[simp] theorem layoutBytes_cons (r : LayoutRow) (rows : List LayoutRow) :
    layoutBytes (r :: rows) = leBytes r.size r.value ++ layoutBytes rows := rfl

@[simp] theorem layoutBytes_nil : layoutBytes [] = [] := rfl

@[simp] theorem layoutBytes_append (xs ys : List LayoutRow) :
    layoutBytes (xs ++ ys) = layoutBytes xs ++ layoutBytes ys := List.flatMap_append

/-- The rows of a table follow each other without a gap, the first at `offset`. -/
def Contiguous (offset : Nat) : List LayoutRow → Prop
  | [] => True
  | r :: rest => r.offset = offset ∧ Contiguous (offset + r.size) rest

/-- The bytes that a contiguous table spells hold its rows, behind any others. -/
theorem holdsRows_append_layoutBytes (before : List Byte) {rows : List LayoutRow}
    (h : Contiguous before.length rows) : holdsRows (before ++ layoutBytes rows) rows := by
  induction rows generalizing before with
  | nil => simp [holdsRows]
  | cons r rest ih =>
    obtain ⟨start, follow⟩ := h
    have later := ih (before ++ leBytes r.size r.value) (by simpa using follow)
    rw [List.append_assoc] at later
    intro q hq k hk
    rcases List.mem_cons.1 hq with rfl | hq
    · rw [start, List.getElem?_append_right (by omega), Nat.add_sub_cancel_left, layoutBytes_cons,
        List.getElem?_append_left (by simpa using hk), getElem?_leBytes hk]
    · exact later q hq k hk

/-- A byte string that spells a contiguous table from its first byte on holds its rows. -/
theorem holdsRows_of_eq {bytes : List Byte} {rows : List LayoutRow} (spelt : bytes = layoutBytes rows)
    (h : Contiguous 0 rows) : holdsRows bytes rows := by
  subst spelt
  exact holdsRows_append_layoutBytes [] h

/-! ### Codes (R201, R203) -/

theorem bit_eq_toNat (x : Bool) : bit x = x.toNat := by
  cases x <;> rfl

theorem ErrorCode.numbers_eq (c : ErrorCode) : c.numbers = (c.source.code, c.code) := by
  cases c <;> rfl

theorem Severity.number_eq (s : Severity) : s.number = s.code := by
  cases s <;> rfl

theorem Bank.shown_eq (x : Bank) : x.shown = (x.code, x.shownId) := by
  cases x <;> rfl

/-! ### The tables of the records (R201) -/

theorem JointResult.bytes_eq (j : JointResult) : j.bytes = layoutBytes j.rows := by
  obtain ⟨frame, index, label, verdict, cause⟩ := j
  simp only [JointResult.bytes, JointResult.rows, Defects.code, bit_eq_toNat, layoutBytes_cons, layoutBytes_nil,
    List.append_assoc, List.append_nil]
  cases cause with
  | none => rfl
  | some c => cases c <;> rfl

theorem BoardResult.bytes_eq (r : BoardResult) : r.bytes = layoutBytes r.rows := by
  simp only [BoardResult.bytes, BoardResult.rows, bit_eq_toNat, layoutBytes_cons, layoutBytes_nil,
    List.append_assoc, List.append_nil]
  rfl

theorem NoticeResult.bytes_eq (r : NoticeResult) : r.bytes = layoutBytes r.rows := by
  simp only [NoticeResult.bytes, NoticeResult.rows, ErrorCode.numbers_eq, Severity.number_eq, bit_eq_toNat,
    layoutBytes_cons, layoutBytes_nil, List.append_assoc, List.append_nil]

theorem RingRecord.bytes_eq (r : RingRecord) : r.bytes = layoutBytes r.rows := by
  cases r with
  | joint j => exact j.bytes_eq
  | board r => exact r.bytes_eq
  | notice r => exact r.bytes_eq

theorem RingRecord.contiguous_rows (r : RingRecord) : Contiguous 0 r.rows := by
  cases r with
  | joint j => simp [RingRecord.rows, JointResult.rows, Contiguous]
  | board r => simp [RingRecord.rows, BoardResult.rows, Contiguous]
  | notice r => simp [RingRecord.rows, NoticeResult.rows, Contiguous]

theorem RingRecord.length_bytes (r : RingRecord) : r.bytes.length = 32 := by
  cases r with
  | joint j => simp [RingRecord.bytes, JointResult.bytes]
  | board r => simp [RingRecord.bytes, BoardResult.bytes]
  | notice r => simp [RingRecord.bytes, NoticeResult.bytes]

/-! ### The table of the status block (R203) -/

theorem ErrorLog.bytes_eq (l : ErrorLog) (offset : Nat) : l.bytes = layoutBytes (l.rows offset) := by
  unfold ErrorLog.bytes ErrorLog.rows
  cases l.held with
  | none => simp
  | some e => simp [ErrorCode.numbers_eq, Severity.number_eq, bit_eq_toNat]

@[simp] theorem ErrorLog.length_bytes (l : ErrorLog) : l.bytes.length = 16 := by
  unfold ErrorLog.bytes
  split <;> simp

/-- A log entry takes 16 bytes, whether the log holds an error or not. -/
theorem ErrorLog.contiguous_rows_append (l : ErrorLog) (offset : Nat) (rest : List LayoutRow) :
    Contiguous offset (l.rows offset ++ rest) ↔ Contiguous (offset + 16) rest := by
  unfold ErrorLog.rows
  cases l.held <;> simp [Contiguous, Nat.add_assoc]

theorem Port.statusBytes_eq (p : Port) (offset : Nat) : p.statusBytes = layoutBytes (p.rows offset) := by
  simp only [Port.statusBytes, Port.rows, layoutBytes_cons, layoutBytes_nil, List.append_assoc, List.append_nil]
  rfl

@[simp] theorem Port.length_statusBytes (p : Port) : p.statusBytes.length = 4 := by
  simp [Port.statusBytes]

theorem Port.contiguous_rows_append (p : Port) (offset : Nat) (rest : List LayoutRow) :
    Contiguous offset (p.rows offset ++ rest) ↔ Contiguous (offset + 4) rest := by
  simp [Port.rows, Contiguous, Nat.add_assoc]

/-- The ring configuration field by field, each 0 while it is unset. -/
theorem ringBytes_eq (r : Option Ring) : ringBytes r = leBytes 8 ((r.map (·.base.toNat)).getD 0)
    ++ leBytes 4 ((r.map (·.size)).getD 0) ++ leBytes 1 ((r.map (·.irqOn.toNat)).getD 0) ++ leBytes 3 0 := by
  cases r with
  | none => rfl
  | some ring => simp [ringBytes, bit_eq_toNat]

theorem Block.length_statusBytes (b : Block) : b.statusBytes.length = 256 := by
  unfold Block.statusBytes
  simp [ringBytes_eq]

theorem Block.contiguous_statusRows (b : Block) : Contiguous 0 b.statusRows := by
  simp only [Block.statusRows, List.append_assoc, List.cons_append, List.nil_append, Contiguous,
    Port.contiguous_rows_append, ErrorLog.contiguous_rows_append, Nat.reduceAdd, and_true]

/-- The block's bytes are those of its table: field by field the same value, a code where the table names one. -/
theorem Block.statusBytes_eq (b : Block) : b.statusBytes = layoutBytes b.statusRows := by
  unfold Block.statusBytes
  simp only [Block.statusRows, ringBytes_eq, Bank.shown_eq, bit_eq_toNat, layoutBytes_append, layoutBytes_cons,
    layoutBytes_nil, List.append_assoc, List.append_nil, ← Port.statusBytes_eq, ← ErrorLog.bytes_eq]
  congr!
  · rcases b.store.record.target with _ | bank
    · rfl
    · cases bank <;> rfl
  · rcases b.store.record.outcome with _ | outcome
    · rfl
    · cases outcome <;> rfl
  all_goals cases b.writer.ring <;> rfl

end Sys2Proof.Machine
end

section
/-! SUPPORT. The grant of the internal master's head request (R157; O23). -/

namespace Sys2Proof.Machine

/-- The internal master's head request is sent and leaves the queue; a status write raises the sequence first. -/
theorem Block.forwardInternal_eq {b : Block} {r : InternalRequest} {rest : List InternalRequest}
    (hl : b.master.queue = r :: rest) (tag : Nat) :
    b.forwardInternal r tag = { b.countStatus r.work with
      memory := b.memory.send r.owner ((b.countStatus r.work).workRequest r.work tag)
      master := { b.master with queue := rest } } := by
  simp only [Block.forwardInternal, Block.countStatus_frame, hl, List.tail_cons]

/-- Settles O23: the internal master's turn gives the head of its queue, and the bytes sent are those of the tables. -/
theorem grantSendsInternalRequests : Obligations.GrantSendsInternalRequests := by
  unfold Obligations.GrantSendsInternalRequests
  refine ⟨fun s pick inHand n work rest tag turn hl room apart picked => ?_,
    fun r => ⟨r.length_bytes, holdsRows_of_eq r.bytes_eq r.contiguous_rows⟩,
    fun b => ⟨b.length_statusBytes, holdsRows_of_eq b.statusBytes_eq b.contiguous_statusRows⟩,
    fun bytes n j hj => getElem?_packBeats bytes hj, fun bytes k x hk hx => beatByte_packBeat hk hx⟩
  intro sequence own form
  have presented : s.block.presents .internal = some (.internal ⟨n, work⟩) :=
    Block.masterPresents_iff.2 ⟨_, rest, rfl, hl, room, apart⟩
  show Host.Outcome.next (s.withBlock (s.block.arbiterGrant pick inHand)) = _
  rw [Block.arbiterGrant_of_granted (Block.granted_of_inTurn turn presented) picked, Block.grant,
    Block.forwardInternal_eq hl]
  cases work <;> rfl

end Sys2Proof.Machine
end
